-- ==== Sys2Proof/Word.lean ====
section
/-! DEFINITION. The two word types of the MC6809: a memory byte or 8-bit register, and an address or 16-bit register
(spec 10_state R20, 20_memory R40). -/

namespace Sys2Proof

/-- A memory byte or an 8-bit register: A, B, CC, DP (R20). -/
abbrev Byte := BitVec 8

/-- An address or a 16-bit register: D, X, Y, U, S, PC (R20, R40). -/
abbrev Word := BitVec 16

end Sys2Proof
end

