-- ==== Sys2Proof/Syntax.lean ====
section
/-! DEFINITION. The instructions of the MC6809 as data: operand forms (30_encoding R60 to R83) and one constructor for each
mnemonic of spec/opcode_table.json, which carries the addressing mode as its operand. The second mnemonics of R92 (LSL,
LSLA, LSLB, BHS, BLO, LBHS, LBLO) have constructors of their own; their words decode to the first mnemonic's (log 13). -/

namespace Sys2Proof

/-- The register of an indexed post-byte, field rr (R68). -/
inductive IdxReg where
  | x | y | u | s
  deriving DecidableEq, Repr

/-- The indexed forms of R69 to R79, row by row of R81. The flag `ind` is the indirect bit (R77). The forms `[,R+]` and
`[,-R]`, which R80 refuses, cannot be written. -/
inductive Indexed where
  /-- `n,R` with the offset in the post-byte (R69). -/
  | off5 (r : IdxReg) (n : BitVec 5)
  /-- `,R` and `[,R]` (R70). -/
  | noOff (r : IdxReg) (ind : Bool)
  /-- `n,R` and `[n,R]`, 8-bit offset (R71). -/
  | off8 (r : IdxReg) (n : Byte) (ind : Bool)
  /-- `n,R` and `[n,R]`, 16-bit offset (R72). -/
  | off16 (r : IdxReg) (n : Word) (ind : Bool)
  /-- `A,R` and `[A,R]` (R73). -/
  | accA (r : IdxReg) (ind : Bool)
  /-- `B,R` and `[B,R]` (R73). -/
  | accB (r : IdxReg) (ind : Bool)
  /-- `D,R` and `[D,R]` (R74). -/
  | accD (r : IdxReg) (ind : Bool)
  /-- `,R+` (R75). -/
  | inc1 (r : IdxReg)
  /-- `,R++` and `[,R++]` (R75). -/
  | inc2 (r : IdxReg) (ind : Bool)
  /-- `,-R` (R76). -/
  | dec1 (r : IdxReg)
  /-- `,--R` and `[,--R]` (R76). -/
  | dec2 (r : IdxReg) (ind : Bool)
  /-- `n,PCR` and `[n,PCR]`, 8-bit offset (R78). -/
  | pcr8 (n : Byte) (ind : Bool)
  /-- `n,PCR` and `[n,PCR]`, 16-bit offset (R78). -/
  | pcr16 (n : Word) (ind : Bool)
  /-- `[n]`, extended indirect (R79). -/
  | extInd (addr : Word)
  deriving DecidableEq, Repr

/-- A memory operand: direct (R66), extended (R67) or indexed (R68). -/
inductive MemOperand where
  | direct (addr : Byte)
  | extended (addr : Word)
  | indexed (m : Indexed)
  deriving DecidableEq, Repr

/-- An 8-bit source operand: immediate (R64) or in memory. -/
inductive Src8 where
  | imm (v : Byte)
  | mem (m : MemOperand)
  deriving DecidableEq, Repr

/-- A 16-bit source operand: immediate (R64) or in memory. -/
inductive Src16 where
  | imm (v : Word)
  | mem (m : MemOperand)
  deriving DecidableEq, Repr

/-- The registers a TFR or EXG post-byte can name (R82). -/
inductive Reg where
  | d | x | y | u | s | pc | a | b | cc | dp
  deriving DecidableEq, Repr

/-- The instructions. A register list (R83) and a mask are bytes; a branch carries its offset field (R220). -/
inductive Instr where
  -- file 40: ABX to LDY
  | abx
  | adca (src : Src8) | adcb (src : Src8)
  | adda (src : Src8) | addb (src : Src8) | addd (src : Src16)
  | anda (src : Src8) | andb (src : Src8) | andcc (mask : Byte)
  | asla | aslb | asl (m : MemOperand)
  | asra | asrb | asr (m : MemOperand)
  | bita (src : Src8) | bitb (src : Src8)
  | clra | clrb | clr (m : MemOperand)
  | cmpa (src : Src8) | cmpb (src : Src8)
  | cmpd (src : Src16) | cmps (src : Src16) | cmpu (src : Src16) | cmpx (src : Src16) | cmpy (src : Src16)
  | coma | comb | com (m : MemOperand)
  | cwai (mask : Byte)
  | daa
  | deca | decb | dec (m : MemOperand)
  | eora (src : Src8) | eorb (src : Src8)
  | exg (r1 r2 : Reg)
  | inca | incb | inc (m : MemOperand)
  | jmp (m : MemOperand) | jsr (m : MemOperand)
  | lda (src : Src8) | ldb (src : Src8)
  | ldd (src : Src16) | lds (src : Src16) | ldu (src : Src16) | ldx (src : Src16) | ldy (src : Src16)
  -- file 41: LEA to TST
  | leas (m : Indexed) | leau (m : Indexed) | leax (m : Indexed) | leay (m : Indexed)
  | lsla | lslb | lsl (m : MemOperand)
  | lsra | lsrb | lsr (m : MemOperand)
  | mul
  | nega | negb | neg (m : MemOperand)
  | nop
  | ora (src : Src8) | orb (src : Src8) | orcc (mask : Byte)
  | pshs (list : Byte) | pshu (list : Byte) | puls (list : Byte) | pulu (list : Byte)
  | rola | rolb | rol (m : MemOperand)
  | rora | rorb | ror (m : MemOperand)
  | rti | rts
  | sbca (src : Src8) | sbcb (src : Src8)
  | sex
  | sta (m : MemOperand) | stb (m : MemOperand)
  | std (m : MemOperand) | sts (m : MemOperand) | stu (m : MemOperand) | stx (m : MemOperand) | sty (m : MemOperand)
  | suba (src : Src8) | subb (src : Src8) | subd (src : Src16)
  | swi | swi2 | swi3
  | sync
  | tfr (r1 r2 : Reg)
  | tsta | tstb | tst (m : MemOperand)
  -- file 42: branches, short then long
  | bcc (off : Byte) | bcs (off : Byte) | beq (off : Byte) | bge (off : Byte) | bgt (off : Byte)
  | bhi (off : Byte) | bhs (off : Byte) | ble (off : Byte) | blo (off : Byte) | bls (off : Byte)
  | blt (off : Byte) | bmi (off : Byte) | bne (off : Byte) | bpl (off : Byte) | bra (off : Byte)
  | brn (off : Byte) | bsr (off : Byte) | bvc (off : Byte) | bvs (off : Byte)
  | lbcc (off : Word) | lbcs (off : Word) | lbeq (off : Word) | lbge (off : Word) | lbgt (off : Word)
  | lbhi (off : Word) | lbhs (off : Word) | lble (off : Word) | lblo (off : Word) | lbls (off : Word)
  | lblt (off : Word) | lbmi (off : Word) | lbne (off : Word) | lbpl (off : Word) | lbra (off : Word)
  | lbrn (off : Word) | lbsr (off : Word) | lbvc (off : Word) | lbvs (off : Word)
  deriving DecidableEq, Repr

end Sys2Proof
end

