-- ==== Sys2Proof/Machine/Bits.lean ====
section
/-! DEFINITION. Byte order, sign extension and the register codes of the post-bytes (20_memory R43; 00_scope R12;
30_encoding R68, R82). -/

namespace Sys2Proof.Machine

/-- Bits 15 to 8 of a word. -/
def hiByte (w : Word) : Byte := w.extractLsb' 8 8

/-- Bits 7 to 0 of a word. -/
def loByte (w : Word) : Byte := w.extractLsb' 0 8

/-- `h : l`, the high-order byte first (R10, R43). -/
def catBytes (h l : Byte) : Word := h ++ l

/-- The two's-complement extension of a byte to 16 bits, `sext_16` (R12). -/
def sext8 (b : Byte) : Word := b.signExtend 16

/-- The two's-complement extension of a 5-bit offset to 16 bits (R69). -/
def sext5 (n : BitVec 5) : Word := n.signExtend 16

/-- A byte as an unsigned 16-bit number, `zext_16` (R12). -/
def zext8 (b : Byte) : Word := b.setWidth 16

/-- The rr code of an index register (R68). -/
def idxCode : IdxReg → BitVec 2
  | .x => 0b00#2
  | .y => 0b01#2
  | .u => 0b10#2
  | .s => 0b11#2

/-- The index register an rr code names (R68). -/
def idxOfCode (c : BitVec 2) : IdxReg :=
  if c = 0b00#2 then .x else if c = 0b01#2 then .y else if c = 0b10#2 then .u else .s

/-- The 4-bit code of a register in a TFR or EXG post-byte (R82). -/
def regCode : Reg → BitVec 4
  | .d => 0x0#4
  | .x => 0x1#4
  | .y => 0x2#4
  | .u => 0x3#4
  | .s => 0x4#4
  | .pc => 0x5#4
  | .a => 0x8#4
  | .b => 0x9#4
  | .cc => 0xA#4
  | .dp => 0xB#4

/-- The register a 4-bit code names: codes 6, 7, C, D, E and F name none (R82). -/
def regOfCode (c : BitVec 4) : Option Reg :=
  [Reg.d, .x, .y, .u, .s, .pc, .a, .b, .cc, .dp].find? (fun r => regCode r == c)

/-- Whether a register of R82's table is 16 bits wide. -/
def regWide : Reg → Bool
  | .d | .x | .y | .u | .s | .pc => true
  | .a | .b | .cc | .dp => false

/-- The indirect bit of an indexed form; the extended indirect form is indirect by itself (R77, R79). -/
def isIndirect : Indexed → Bool
  | .off5 _ _ | .inc1 _ | .dec1 _ => false
  | .noOff _ ind | .off8 _ _ ind | .off16 _ _ ind | .accA _ ind | .accB _ ind | .accD _ ind
  | .inc2 _ ind | .dec2 _ ind | .pcr8 _ ind | .pcr16 _ ind => ind
  | .extInd _ => true

end Sys2Proof.Machine
end

