-- ==== Sys2Proof/WellFormed.lean ====
section
/-! DEFINITION. The one condition the spec puts on an instruction's operands that the syntax does not carry by itself: the two
registers of TFR and EXG have the same width (30_encoding R82). -/

namespace Sys2Proof

/-- "R1 and R2 may be any pair of 8 bit or any pair of 16 bit registers" (R82); every other term of `Instr` is well formed. -/
def Instr.wellFormed : Instr → Bool
  | .tfr r1 r2 => Machine.regWide r1 == Machine.regWide r2
  | .exg r1 r2 => Machine.regWide r1 == Machine.regWide r2
  | _ => true

end Sys2Proof
end

