-- ==== Sys2Proof/Decode.lean ====
section
/-! DEFINITION. The decoder, total on any list of bytes, which rejects by name what 30_encoding R80, R82 and R87 leave without a
meaning; and after it the encoder, written from the same tables. -/

namespace Sys2Proof

/-- Why bytes have no meaning: the three `refuse(...)` reasons of the spec. -/
inductive DecodeError where
  /-- "All unused opcodes are both undefined and illegal" (R87). -/
  | illegalOpcode
  /-- A post-byte with no row in the indexed tables, or one marked "nicht erlaubt" (R80). -/
  | illegalPostbyte
  /-- A register code that names no register, or two registers of different width (R82). -/
  | undefinedTransferOperand
  deriving DecidableEq, Repr

/-- What reading a value from the front of a byte list gives: the value and the bytes after it; that the list ends before
the value does; or a rejection by name. -/
inductive Decoded (α : Type) where
  | ok (value : α) (rest : List Byte)
  | needMore
  | bad (e : DecodeError)
  deriving DecidableEq, Repr

/-- What follows an opcode (R60), and the instruction its operand makes. -/
inductive Form where
  /-- `inh`: nothing follows. -/
  | inh (i : Instr)
  /-- `imm8`, `rel8` and `pb-list`: one byte follows. -/
  | byte (f : Byte → Instr)
  /-- `imm16` and `rel16`: two bytes follow, high first. -/
  | word (f : Word → Instr)
  /-- `dir`: one address byte follows. -/
  | direct (f : MemOperand → Instr)
  /-- `ext`: two address bytes follow, high first. -/
  | extended (f : MemOperand → Instr)
  /-- `idx`: a post-byte and 0, 1 or 2 offset bytes follow. -/
  | indexed (f : MemOperand → Instr)
  /-- `idx` of the LEA instructions, which have no other mode. -/
  | lea (f : Indexed → Instr)
  /-- `pb-rr`: a post-byte that names two registers follows. -/
  | regPair (f : Reg → Reg → Instr)

/-- The value with a function applied to it. -/
def mapDecoded {α β : Type} (f : α → β) : Decoded α → Decoded β
  | .ok v rest => .ok (f v) rest
  | .needMore => .needMore
  | .bad e => .bad e

/-- One byte (`Fetch8`, R12). -/
def decodeByte : List Byte → Decoded Byte
  | [] => .needMore
  | b :: rest => .ok b rest

/-- Two bytes, high first (`Fetch16`, R12, R43). -/
def decodeWord : List Byte → Decoded Word
  | h :: l :: rest => .ok (Machine.catBytes h l) rest
  | _ => .needMore

/-- The form of a post-byte with bit 7 set: sub-mode `mmmm`, register, indirect bit, then the offset bytes (R70 to R81). -/
def decodeSubmode (mmmm : Nat) (r : IdxReg) (ind : Bool) (rest : List Byte) : Decoded Indexed :=
  match mmmm with
  | 0x0 => if ind then .bad .illegalPostbyte else .ok (.inc1 r) rest
  | 0x1 => .ok (.inc2 r ind) rest
  | 0x2 => if ind then .bad .illegalPostbyte else .ok (.dec1 r) rest
  | 0x3 => .ok (.dec2 r ind) rest
  | 0x4 => .ok (.noOff r ind) rest
  | 0x5 => .ok (.accB r ind) rest
  | 0x6 => .ok (.accA r ind) rest
  | 0x8 => mapDecoded (.off8 r · ind) (decodeByte rest)
  | 0x9 => mapDecoded (.off16 r · ind) (decodeWord rest)
  | 0xB => .ok (.accD r ind) rest
  | 0xC => mapDecoded (.pcr8 · ind) (decodeByte rest)
  | 0xD => mapDecoded (.pcr16 · ind) (decodeWord rest)
  | 0xF => if ind then mapDecoded .extInd (decodeWord rest) else .bad .illegalPostbyte
  | _ => .bad .illegalPostbyte

/-- The indexed post-byte and its offset bytes (R68). -/
def decodeIndexed : List Byte → Decoded Indexed
  | [] => .needMore
  | pb :: rest =>
    let r := Machine.idxOfCode (pb.extractLsb' 5 2)
    if pb.getLsbD 7 then decodeSubmode (pb.extractLsb' 0 4).toNat r (pb.getLsbD 4) rest
    else .ok (.off5 r (pb.extractLsb' 0 5)) rest

/-- The post-byte of TFR and EXG: R1 in bits 7:4, R2 in bits 3:0 (R82). -/
def decodeRegPair (f : Reg → Reg → Instr) : List Byte → Decoded Instr
  | [] => .needMore
  | pb :: rest =>
    match Machine.regOfCode (pb.extractLsb' 4 4), Machine.regOfCode (pb.extractLsb' 0 4) with
    | some r1, some r2 =>
      if Machine.regWide r1 == Machine.regWide r2 then .ok (f r1 r2) rest else .bad .undefinedTransferOperand
    | _, _ => .bad .undefinedTransferOperand

/-- What follows the opcode, read as its form says (R60, R62). -/
def decodeForm : Form → List Byte → Decoded Instr
  | .inh i, bs => .ok i bs
  | .byte f, bs => mapDecoded f (decodeByte bs)
  | .word f, bs => mapDecoded f (decodeWord bs)
  | .direct f, bs => mapDecoded (f <| .direct ·) (decodeByte bs)
  | .extended f, bs => mapDecoded (f <| .extended ·) (decodeWord bs)
  | .indexed f, bs => mapDecoded (f <| .indexed ·) (decodeIndexed bs)
  | .lea f, bs => mapDecoded f (decodeIndexed bs)
  | .regPair f, bs => decodeRegPair f bs

/-- Row 0x of the page-1 map (R84). -/
def page1Row0 : List (Nat × Form) :=
  [(0x00, .direct .neg), (0x03, .direct .com), (0x04, .direct .lsr),
   (0x06, .direct .ror), (0x07, .direct .asr), (0x08, .direct .asl),
   (0x09, .direct .rol), (0x0A, .direct .dec), (0x0C, .direct .inc),
   (0x0D, .direct .tst), (0x0E, .direct .jmp), (0x0F, .direct .clr)]

/-- Row 1x of the page-1 map (R84). -/
def page1Row1 : List (Nat × Form) :=
  [(0x12, .inh .nop), (0x13, .inh .sync), (0x16, .word .lbra),
   (0x17, .word .lbsr), (0x19, .inh .daa), (0x1A, .byte .orcc),
   (0x1C, .byte .andcc), (0x1D, .inh .sex), (0x1E, .regPair .exg),
   (0x1F, .regPair .tfr)]

/-- Row 2x of the page-1 map (R84). -/
def page1Row2 : List (Nat × Form) :=
  [(0x20, .byte .bra), (0x21, .byte .brn), (0x22, .byte .bhi),
   (0x23, .byte .bls), (0x24, .byte .bcc), (0x25, .byte .bcs),
   (0x26, .byte .bne), (0x27, .byte .beq), (0x28, .byte .bvc),
   (0x29, .byte .bvs), (0x2A, .byte .bpl), (0x2B, .byte .bmi),
   (0x2C, .byte .bge), (0x2D, .byte .blt), (0x2E, .byte .bgt),
   (0x2F, .byte .ble)]

/-- Row 3x of the page-1 map (R84). -/
def page1Row3 : List (Nat × Form) :=
  [(0x30, .lea .leax), (0x31, .lea .leay), (0x32, .lea .leas),
   (0x33, .lea .leau), (0x34, .byte .pshs), (0x35, .byte .puls),
   (0x36, .byte .pshu), (0x37, .byte .pulu), (0x39, .inh .rts),
   (0x3A, .inh .abx), (0x3B, .inh .rti), (0x3C, .byte .cwai),
   (0x3D, .inh .mul), (0x3F, .inh .swi)]

/-- Row 4x of the page-1 map (R84). -/
def page1Row4 : List (Nat × Form) :=
  [(0x40, .inh .nega), (0x43, .inh .coma), (0x44, .inh .lsra),
   (0x46, .inh .rora), (0x47, .inh .asra), (0x48, .inh .asla),
   (0x49, .inh .rola), (0x4A, .inh .deca), (0x4C, .inh .inca),
   (0x4D, .inh .tsta), (0x4F, .inh .clra)]

/-- Row 5x of the page-1 map (R84). -/
def page1Row5 : List (Nat × Form) :=
  [(0x50, .inh .negb), (0x53, .inh .comb), (0x54, .inh .lsrb),
   (0x56, .inh .rorb), (0x57, .inh .asrb), (0x58, .inh .aslb),
   (0x59, .inh .rolb), (0x5A, .inh .decb), (0x5C, .inh .incb),
   (0x5D, .inh .tstb), (0x5F, .inh .clrb)]

/-- Row 6x of the page-1 map (R84). -/
def page1Row6 : List (Nat × Form) :=
  [(0x60, .indexed .neg), (0x63, .indexed .com), (0x64, .indexed .lsr),
   (0x66, .indexed .ror), (0x67, .indexed .asr), (0x68, .indexed .asl),
   (0x69, .indexed .rol), (0x6A, .indexed .dec), (0x6C, .indexed .inc),
   (0x6D, .indexed .tst), (0x6E, .indexed .jmp), (0x6F, .indexed .clr)]

/-- Row 7x of the page-1 map (R84). -/
def page1Row7 : List (Nat × Form) :=
  [(0x70, .extended .neg), (0x73, .extended .com), (0x74, .extended .lsr),
   (0x76, .extended .ror), (0x77, .extended .asr), (0x78, .extended .asl),
   (0x79, .extended .rol), (0x7A, .extended .dec), (0x7C, .extended .inc),
   (0x7D, .extended .tst), (0x7E, .extended .jmp), (0x7F, .extended .clr)]

/-- Row 8x of the page-1 map (R84). -/
def page1Row8 : List (Nat × Form) :=
  [(0x80, .byte (.suba <| .imm ·)), (0x81, .byte (.cmpa <| .imm ·)), (0x82, .byte (.sbca <| .imm ·)),
   (0x83, .word (.subd <| .imm ·)), (0x84, .byte (.anda <| .imm ·)), (0x85, .byte (.bita <| .imm ·)),
   (0x86, .byte (.lda <| .imm ·)), (0x88, .byte (.eora <| .imm ·)), (0x89, .byte (.adca <| .imm ·)),
   (0x8A, .byte (.ora <| .imm ·)), (0x8B, .byte (.adda <| .imm ·)), (0x8C, .word (.cmpx <| .imm ·)),
   (0x8D, .byte .bsr), (0x8E, .word (.ldx <| .imm ·))]

/-- Row 9x of the page-1 map (R84). -/
def page1Row9 : List (Nat × Form) :=
  [(0x90, .direct (.suba <| .mem ·)), (0x91, .direct (.cmpa <| .mem ·)), (0x92, .direct (.sbca <| .mem ·)),
   (0x93, .direct (.subd <| .mem ·)), (0x94, .direct (.anda <| .mem ·)), (0x95, .direct (.bita <| .mem ·)),
   (0x96, .direct (.lda <| .mem ·)), (0x97, .direct .sta), (0x98, .direct (.eora <| .mem ·)),
   (0x99, .direct (.adca <| .mem ·)), (0x9A, .direct (.ora <| .mem ·)), (0x9B, .direct (.adda <| .mem ·)),
   (0x9C, .direct (.cmpx <| .mem ·)), (0x9D, .direct .jsr), (0x9E, .direct (.ldx <| .mem ·)),
   (0x9F, .direct .stx)]

/-- Row Ax of the page-1 map (R84). -/
def page1RowA : List (Nat × Form) :=
  [(0xA0, .indexed (.suba <| .mem ·)), (0xA1, .indexed (.cmpa <| .mem ·)), (0xA2, .indexed (.sbca <| .mem ·)),
   (0xA3, .indexed (.subd <| .mem ·)), (0xA4, .indexed (.anda <| .mem ·)), (0xA5, .indexed (.bita <| .mem ·)),
   (0xA6, .indexed (.lda <| .mem ·)), (0xA7, .indexed .sta), (0xA8, .indexed (.eora <| .mem ·)),
   (0xA9, .indexed (.adca <| .mem ·)), (0xAA, .indexed (.ora <| .mem ·)), (0xAB, .indexed (.adda <| .mem ·)),
   (0xAC, .indexed (.cmpx <| .mem ·)), (0xAD, .indexed .jsr), (0xAE, .indexed (.ldx <| .mem ·)),
   (0xAF, .indexed .stx)]

/-- Row Bx of the page-1 map (R84). -/
def page1RowB : List (Nat × Form) :=
  [(0xB0, .extended (.suba <| .mem ·)), (0xB1, .extended (.cmpa <| .mem ·)), (0xB2, .extended (.sbca <| .mem ·)),
   (0xB3, .extended (.subd <| .mem ·)), (0xB4, .extended (.anda <| .mem ·)), (0xB5, .extended (.bita <| .mem ·)),
   (0xB6, .extended (.lda <| .mem ·)), (0xB7, .extended .sta), (0xB8, .extended (.eora <| .mem ·)),
   (0xB9, .extended (.adca <| .mem ·)), (0xBA, .extended (.ora <| .mem ·)), (0xBB, .extended (.adda <| .mem ·)),
   (0xBC, .extended (.cmpx <| .mem ·)), (0xBD, .extended .jsr), (0xBE, .extended (.ldx <| .mem ·)),
   (0xBF, .extended .stx)]

/-- Row Cx of the page-1 map (R84). -/
def page1RowC : List (Nat × Form) :=
  [(0xC0, .byte (.subb <| .imm ·)), (0xC1, .byte (.cmpb <| .imm ·)), (0xC2, .byte (.sbcb <| .imm ·)),
   (0xC3, .word (.addd <| .imm ·)), (0xC4, .byte (.andb <| .imm ·)), (0xC5, .byte (.bitb <| .imm ·)),
   (0xC6, .byte (.ldb <| .imm ·)), (0xC8, .byte (.eorb <| .imm ·)), (0xC9, .byte (.adcb <| .imm ·)),
   (0xCA, .byte (.orb <| .imm ·)), (0xCB, .byte (.addb <| .imm ·)), (0xCC, .word (.ldd <| .imm ·)),
   (0xCE, .word (.ldu <| .imm ·))]

/-- Row Dx of the page-1 map (R84). -/
def page1RowD : List (Nat × Form) :=
  [(0xD0, .direct (.subb <| .mem ·)), (0xD1, .direct (.cmpb <| .mem ·)), (0xD2, .direct (.sbcb <| .mem ·)),
   (0xD3, .direct (.addd <| .mem ·)), (0xD4, .direct (.andb <| .mem ·)), (0xD5, .direct (.bitb <| .mem ·)),
   (0xD6, .direct (.ldb <| .mem ·)), (0xD7, .direct .stb), (0xD8, .direct (.eorb <| .mem ·)),
   (0xD9, .direct (.adcb <| .mem ·)), (0xDA, .direct (.orb <| .mem ·)), (0xDB, .direct (.addb <| .mem ·)),
   (0xDC, .direct (.ldd <| .mem ·)), (0xDD, .direct .std), (0xDE, .direct (.ldu <| .mem ·)),
   (0xDF, .direct .stu)]

/-- Row Ex of the page-1 map (R84). -/
def page1RowE : List (Nat × Form) :=
  [(0xE0, .indexed (.subb <| .mem ·)), (0xE1, .indexed (.cmpb <| .mem ·)), (0xE2, .indexed (.sbcb <| .mem ·)),
   (0xE3, .indexed (.addd <| .mem ·)), (0xE4, .indexed (.andb <| .mem ·)), (0xE5, .indexed (.bitb <| .mem ·)),
   (0xE6, .indexed (.ldb <| .mem ·)), (0xE7, .indexed .stb), (0xE8, .indexed (.eorb <| .mem ·)),
   (0xE9, .indexed (.adcb <| .mem ·)), (0xEA, .indexed (.orb <| .mem ·)), (0xEB, .indexed (.addb <| .mem ·)),
   (0xEC, .indexed (.ldd <| .mem ·)), (0xED, .indexed .std), (0xEE, .indexed (.ldu <| .mem ·)),
   (0xEF, .indexed .stu)]

/-- Row Fx of the page-1 map (R84). -/
def page1RowF : List (Nat × Form) :=
  [(0xF0, .extended (.subb <| .mem ·)), (0xF1, .extended (.cmpb <| .mem ·)), (0xF2, .extended (.sbcb <| .mem ·)),
   (0xF3, .extended (.addd <| .mem ·)), (0xF4, .extended (.andb <| .mem ·)), (0xF5, .extended (.bitb <| .mem ·)),
   (0xF6, .extended (.ldb <| .mem ·)), (0xF7, .extended .stb), (0xF8, .extended (.eorb <| .mem ·)),
   (0xF9, .extended (.adcb <| .mem ·)), (0xFA, .extended (.orb <| .mem ·)), (0xFB, .extended (.addb <| .mem ·)),
   (0xFC, .extended (.ldd <| .mem ·)), (0xFD, .extended .std), (0xFE, .extended (.ldu <| .mem ·)),
   (0xFF, .extended .stu)]

/-- The page-2 opcodes below $80 (R85). -/
def page2Branches : List (Nat × Form) :=
  [(0x21, .word .lbrn), (0x22, .word .lbhi), (0x23, .word .lbls),
   (0x24, .word .lbcc), (0x25, .word .lbcs), (0x26, .word .lbne),
   (0x27, .word .lbeq), (0x28, .word .lbvc), (0x29, .word .lbvs),
   (0x2A, .word .lbpl), (0x2B, .word .lbmi), (0x2C, .word .lbge),
   (0x2D, .word .lblt), (0x2E, .word .lbgt), (0x2F, .word .lble),
   (0x3F, .inh .swi2)]

/-- The page-2 opcodes from $80 (R85). -/
def page2Registers : List (Nat × Form) :=
  [(0x83, .word (.cmpd <| .imm ·)), (0x8C, .word (.cmpy <| .imm ·)), (0x8E, .word (.ldy <| .imm ·)),
   (0x93, .direct (.cmpd <| .mem ·)), (0x9C, .direct (.cmpy <| .mem ·)), (0x9E, .direct (.ldy <| .mem ·)),
   (0x9F, .direct .sty), (0xA3, .indexed (.cmpd <| .mem ·)), (0xAC, .indexed (.cmpy <| .mem ·)),
   (0xAE, .indexed (.ldy <| .mem ·)), (0xAF, .indexed .sty), (0xB3, .extended (.cmpd <| .mem ·)),
   (0xBC, .extended (.cmpy <| .mem ·)), (0xBE, .extended (.ldy <| .mem ·)), (0xBF, .extended .sty),
   (0xCE, .word (.lds <| .imm ·)), (0xDE, .direct (.lds <| .mem ·)), (0xDF, .direct .sts),
   (0xEE, .indexed (.lds <| .mem ·)), (0xEF, .indexed .sts), (0xFE, .extended (.lds <| .mem ·)),
   (0xFF, .extended .sts)]

/-- The page-3 opcodes (R86). -/
def page3Rows : List (Nat × Form) :=
  [(0x3F, .inh .swi3), (0x83, .word (.cmpu <| .imm ·)), (0x8C, .word (.cmps <| .imm ·)),
   (0x93, .direct (.cmpu <| .mem ·)), (0x9C, .direct (.cmps <| .mem ·)), (0xA3, .indexed (.cmpu <| .mem ·)),
   (0xAC, .indexed (.cmps <| .mem ·)), (0xB3, .extended (.cmpu <| .mem ·)), (0xBC, .extended (.cmps <| .mem ·))]

/-- The page-1 map (R84). -/
def page1Rows : List (Nat × Form) :=
  page1Row0 ++ page1Row1 ++ page1Row2 ++ page1Row3 ++ page1Row4 ++ page1Row5 ++ page1Row6 ++ page1Row7 ++
  page1Row8 ++ page1Row9 ++ page1RowA ++ page1RowB ++ page1RowC ++ page1RowD ++ page1RowE ++ page1RowF

/-- The page-2 table (R85). -/
def page2Rows : List (Nat × Form) := page2Branches ++ page2Registers

/-- The form of an opcode in a page's table. -/
def findForm (op : Nat) : List (Nat × Form) → Option Form
  | [] => none
  | row :: rows => if row.1 == op then some row.2 else findForm op rows

/-- An opcode of one page, then its operand; an opcode that is not in the page's table is refused (R62, R87). -/
def decodePage (rows : List (Nat × Form)) : List Byte → Decoded Instr
  | [] => .needMore
  | op :: rest =>
    match findForm op.toNat rows with
    | some form => decodeForm form rest
    | none => .bad .illegalOpcode

/-- The instruction at the front of a byte list. Only the first byte can be a page prefix (R61, R89). -/
def decode : List Byte → Decoded Instr
  | [] => .needMore
  | b :: rest =>
    if b = 0x10#8 then decodePage page2Rows rest
    else if b = 0x11#8 then decodePage page3Rows rest
    else decodePage page1Rows (b :: rest)

/-! ## The encoder -/

/-- A word, high byte first. -/
def encodeWord (w : Word) : List Byte := [Machine.hiByte w, Machine.loByte w]

/-- The post-byte `1rrimmmm` (R68). -/
def postbyte (r : IdxReg) (ind : Bool) (mmmm : BitVec 4) : Byte :=
  1#1 ++ Machine.idxCode r ++ BitVec.ofBool ind ++ mmmm

/-- Post-byte and offset bytes of an indexed form (R81). The ignored rr bits of R78 and R79 are written 00. -/
def encodeIndexed : Indexed → List Byte
  | .off5 r n => [0#1 ++ Machine.idxCode r ++ n]
  | .noOff r ind => [postbyte r ind 0x4]
  | .off8 r n ind => [postbyte r ind 0x8, n]
  | .off16 r n ind => postbyte r ind 0x9 :: encodeWord n
  | .accA r ind => [postbyte r ind 0x6]
  | .accB r ind => [postbyte r ind 0x5]
  | .accD r ind => [postbyte r ind 0xB]
  | .inc1 r => [postbyte r false 0x0]
  | .inc2 r ind => [postbyte r ind 0x1]
  | .dec1 r => [postbyte r false 0x2]
  | .dec2 r ind => [postbyte r ind 0x3]
  | .pcr8 n ind => [postbyte .x ind 0xC, n]
  | .pcr16 n ind => postbyte .x ind 0xD :: encodeWord n
  | .extInd n => postbyte .x true 0xF :: encodeWord n

/-- A memory operand behind one of three opcodes: direct, indexed, extended. -/
def encodeMem (dir idx ext : Byte) : MemOperand → List Byte
  | .direct a => [dir, a]
  | .indexed m => idx :: encodeIndexed m
  | .extended a => ext :: encodeWord a

/-- The opcodes of the unary memory group: direct `0x`, indexed `6x`, extended `7x` (R84). -/
def encodeUnary (op : Byte) (m : MemOperand) : List Byte := encodeMem op (op + 0x60) (op + 0x70) m

/-- The opcodes of a binary instruction's memory forms, from its immediate row `8x` or `Cx` (R84). -/
def encodeBinary (op : Byte) (m : MemOperand) : List Byte := encodeMem (op + 0x10) (op + 0x20) (op + 0x30) m

/-- An 8-bit source behind the opcodes of its instruction. -/
def encodeSrc8 (op : Byte) : Src8 → List Byte
  | .imm v => [op, v]
  | .mem m => encodeBinary op m

/-- A 16-bit source behind the opcodes of its instruction. -/
def encodeSrc16 (op : Byte) : Src16 → List Byte
  | .imm v => op :: encodeWord v
  | .mem m => encodeBinary op m

/-- The post-byte of TFR and EXG (R82). -/
def encodeRegPair (r1 r2 : Reg) : Byte := Machine.regCode r1 ++ Machine.regCode r2

/-- The bytes of an instruction (R60, R84 to R86). A second mnemonic has the bytes of the first (R92). -/
def encode : Instr → List Byte
  | .abx => [0x3A]
  | .adca src => encodeSrc8 0x89 src
  | .adcb src => encodeSrc8 0xC9 src
  | .adda src => encodeSrc8 0x8B src
  | .addb src => encodeSrc8 0xCB src
  | .addd src => encodeSrc16 0xC3 src
  | .anda src => encodeSrc8 0x84 src
  | .andb src => encodeSrc8 0xC4 src
  | .andcc mask => [0x1C, mask]
  | .asla => [0x48]
  | .aslb => [0x58]
  | .asl m => encodeUnary 0x08 m
  | .asra => [0x47]
  | .asrb => [0x57]
  | .asr m => encodeUnary 0x07 m
  | .bita src => encodeSrc8 0x85 src
  | .bitb src => encodeSrc8 0xC5 src
  | .clra => [0x4F]
  | .clrb => [0x5F]
  | .clr m => encodeUnary 0x0F m
  | .cmpa src => encodeSrc8 0x81 src
  | .cmpb src => encodeSrc8 0xC1 src
  | .cmpd src => 0x10 :: encodeSrc16 0x83 src
  | .cmps src => 0x11 :: encodeSrc16 0x8C src
  | .cmpu src => 0x11 :: encodeSrc16 0x83 src
  | .cmpx src => encodeSrc16 0x8C src
  | .cmpy src => 0x10 :: encodeSrc16 0x8C src
  | .coma => [0x43]
  | .comb => [0x53]
  | .com m => encodeUnary 0x03 m
  | .cwai mask => [0x3C, mask]
  | .daa => [0x19]
  | .deca => [0x4A]
  | .decb => [0x5A]
  | .dec m => encodeUnary 0x0A m
  | .eora src => encodeSrc8 0x88 src
  | .eorb src => encodeSrc8 0xC8 src
  | .exg r1 r2 => [0x1E, encodeRegPair r1 r2]
  | .inca => [0x4C]
  | .incb => [0x5C]
  | .inc m => encodeUnary 0x0C m
  | .jmp m => encodeUnary 0x0E m
  | .jsr m => encodeBinary 0x8D m
  | .lda src => encodeSrc8 0x86 src
  | .ldb src => encodeSrc8 0xC6 src
  | .ldd src => encodeSrc16 0xCC src
  | .lds src => 0x10 :: encodeSrc16 0xCE src
  | .ldu src => encodeSrc16 0xCE src
  | .ldx src => encodeSrc16 0x8E src
  | .ldy src => 0x10 :: encodeSrc16 0x8E src
  | .leas m => 0x32 :: encodeIndexed m
  | .leau m => 0x33 :: encodeIndexed m
  | .leax m => 0x30 :: encodeIndexed m
  | .leay m => 0x31 :: encodeIndexed m
  | .lsla => [0x48]
  | .lslb => [0x58]
  | .lsl m => encodeUnary 0x08 m
  | .lsra => [0x44]
  | .lsrb => [0x54]
  | .lsr m => encodeUnary 0x04 m
  | .mul => [0x3D]
  | .nega => [0x40]
  | .negb => [0x50]
  | .neg m => encodeUnary 0x00 m
  | .nop => [0x12]
  | .ora src => encodeSrc8 0x8A src
  | .orb src => encodeSrc8 0xCA src
  | .orcc mask => [0x1A, mask]
  | .pshs list => [0x34, list]
  | .pshu list => [0x36, list]
  | .puls list => [0x35, list]
  | .pulu list => [0x37, list]
  | .rola => [0x49]
  | .rolb => [0x59]
  | .rol m => encodeUnary 0x09 m
  | .rora => [0x46]
  | .rorb => [0x56]
  | .ror m => encodeUnary 0x06 m
  | .rti => [0x3B]
  | .rts => [0x39]
  | .sbca src => encodeSrc8 0x82 src
  | .sbcb src => encodeSrc8 0xC2 src
  | .sex => [0x1D]
  | .sta m => encodeBinary 0x87 m
  | .stb m => encodeBinary 0xC7 m
  | .std m => encodeBinary 0xCD m
  | .sts m => 0x10 :: encodeBinary 0xCF m
  | .stu m => encodeBinary 0xCF m
  | .stx m => encodeBinary 0x8F m
  | .sty m => 0x10 :: encodeBinary 0x8F m
  | .suba src => encodeSrc8 0x80 src
  | .subb src => encodeSrc8 0xC0 src
  | .subd src => encodeSrc16 0x83 src
  | .swi => [0x3F]
  | .swi2 => [0x10, 0x3F]
  | .swi3 => [0x11, 0x3F]
  | .sync => [0x13]
  | .tfr r1 r2 => [0x1F, encodeRegPair r1 r2]
  | .tsta => [0x4D]
  | .tstb => [0x5D]
  | .tst m => encodeUnary 0x0D m
  | .bcc off => [0x24, off]
  | .bcs off => [0x25, off]
  | .beq off => [0x27, off]
  | .bge off => [0x2C, off]
  | .bgt off => [0x2E, off]
  | .bhi off => [0x22, off]
  | .bhs off => [0x24, off]
  | .ble off => [0x2F, off]
  | .blo off => [0x25, off]
  | .bls off => [0x23, off]
  | .blt off => [0x2D, off]
  | .bmi off => [0x2B, off]
  | .bne off => [0x26, off]
  | .bpl off => [0x2A, off]
  | .bra off => [0x20, off]
  | .brn off => [0x21, off]
  | .bsr off => [0x8D, off]
  | .bvc off => [0x28, off]
  | .bvs off => [0x29, off]
  | .lbcc off => 0x10 :: 0x24 :: encodeWord off
  | .lbcs off => 0x10 :: 0x25 :: encodeWord off
  | .lbeq off => 0x10 :: 0x27 :: encodeWord off
  | .lbge off => 0x10 :: 0x2C :: encodeWord off
  | .lbgt off => 0x10 :: 0x2E :: encodeWord off
  | .lbhi off => 0x10 :: 0x22 :: encodeWord off
  | .lbhs off => 0x10 :: 0x24 :: encodeWord off
  | .lble off => 0x10 :: 0x2F :: encodeWord off
  | .lblo off => 0x10 :: 0x25 :: encodeWord off
  | .lbls off => 0x10 :: 0x23 :: encodeWord off
  | .lblt off => 0x10 :: 0x2D :: encodeWord off
  | .lbmi off => 0x10 :: 0x2B :: encodeWord off
  | .lbne off => 0x10 :: 0x26 :: encodeWord off
  | .lbpl off => 0x10 :: 0x2A :: encodeWord off
  | .lbra off => 0x16 :: encodeWord off
  | .lbrn off => 0x10 :: 0x21 :: encodeWord off
  | .lbsr off => 0x17 :: encodeWord off
  | .lbvc off => 0x10 :: 0x28 :: encodeWord off
  | .lbvs off => 0x10 :: 0x29 :: encodeWord off

/-- The instruction with its first mnemonic: what the words of a second mnemonic decode to (R92). -/
def canonical : Instr → Instr
  | .lsla => .asla
  | .lslb => .aslb
  | .lsl m => .asl m
  | .bhs off => .bcc off
  | .blo off => .bcs off
  | .lbhs off => .lbcc off
  | .lblo off => .lbcs off
  | i => i

/-! ## The host's question: one table row -/

/-- Byte k of a number whose bit 0 is bit 0 of byte 0. -/
def tableByte (nbits w k : Nat) : Byte := BitVec.ofNat 8 ((w % 2 ^ nbits) / 2 ^ (8 * k))

/-- The bytes of a table row's number in the order the hardware stores them, zeros behind it. A page-2 or page-3 row is
numbered as one 16-bit word with the prefix in the high byte (head of 30_encoding), and a word is stored high byte first
(R43); the other rows are numbered byte by byte. Log 15. -/
def tableBytes (nbits w : Nat) : List Byte :=
  let b := tableByte nbits w
  if b 1 = 0x10#8 ∨ b 1 = 0x11#8 then [b 1, b 0, b 2, b 3, b 4] else [b 0, b 1, b 2, b 3, b 4]

/-- The instruction the decoder reads from a table row's number, or none where it refuses. -/
def decodeTableWord (nbits w : Nat) : Option Instr :=
  match decode (tableBytes nbits w) with
  | .ok i _ => some i
  | _ => none

end Sys2Proof
end

