-- ==== Sys2Proof/Config.lean ====
section
/-! DEFINITION. What the spec leaves to the implementation, as constants without a body: nothing in Lean can evaluate one,
so a claim holds whatever its value is. The parameters are those of 00_scope R6. -/

namespace Sys2Proof.Config

/-- ROM_IMAGE (R6, R8): the byte the monitor ROM holds at an address. Log 3. -/
opaque romImage : Word → Byte

/-- What a RAM byte that nothing has written reads as (R33 "RAM contents: unspecified", R34). Log 4. -/
opaque powerOnByte : Word → Byte

/-- A free bit, for the n-th draw of a run: UNDEF_H (R6, R102) and the unspecified flags after a RESET input. Log 6. -/
opaque freeBit : Nat → Bool

/-- A free byte, for the n-th draw of a run: an unpopulated read (R59) or a device read the spec leaves open. Log 7. -/
opaque freeByte : Nat → Byte

/-- A free word, for the n-th draw of a run: the 16-bit registers after a RESET input (R331). Log 11. -/
opaque freeWord : Nat → Word

/-- Whether a pressed key reads as 1 (R303: the polarity is not given). Log 22. -/
opaque keyActive : Bool

/-- The 7-segment code of a hexadecimal digit, as the monitor's routines make it (R306: not given). Log 33. -/
opaque segments : BitVec 4 → Byte

/-- What the monitor's KEY returns when no key is pressed (R305: not given). Log 33. -/
opaque noKey : Byte

/-- Whether a display buffer holds the digit S0 at its lowest address (R306: not given). Log 33. -/
opaque bufferFromRight : Bool

/-- The interrupt inputs of the CPU (R272). -/
inductive CpuInput where
  | nmi | firq | irq
  deriving DecidableEq, Repr, Inhabited

/-- The input that the MC6840 drives (R291: not stated). Log 25. -/
opaque timerInput : CpuInput

/-- The input that IRQA of the MC6821 drives (R291: not stated). Log 25. -/
opaque portAInput : CpuInput

/-- The input that IRQB of the MC6821 drives (R291: not stated). Log 25. -/
opaque portBInput : CpuInput

/-- The pattern by which SHOWKEY and SHOWHKEY show a key code in one digit (R306: not given). Log 33. -/
opaque keyPattern : Byte → Byte

/-- RANDOM's new value after an old one (R306: not given). Log 33. -/
opaque nextRandom : Word → Word

/-- Where the monitor's display buffer lies (R306, R307 item 5: not given). Log 33. -/
opaque displayBuffer : Word

/-- Where the second buffer of COPYDBUF lies, if X holds the address of the display buffer (R306: not given). Log 33. -/
opaque secondBuffer : Word

/-- The RAM that the monitor uses of its own, beside its stack and the RAM vector table (R307 item 5: the extent is not given).
Log 26. -/
opaque monitorRam : Word → Bool

/-- How many bytes of stack a monitor routine or the dispatcher uses below its return address (R306: not stated). Log 26. -/
opaque routineDepth : Nat

end Sys2Proof.Config
end

