-- ==== Sys2Proof/Machine/State.lean ====
section
/-! DEFINITION. Everything the spec gives the machine, as plain data: the CPU's registers and hidden state (10_state), memory
(20_memory), the devices of the board (60_exceptions R292 to R304), the inputs still to come, and the state after reset
(70_reset_and_hazards R330). -/

namespace Sys2Proof.Machine

/-! ## The CPU -/

/-- The condition code register, bit by bit: "All eight bits are storage; none is hardwired" (R24). Holding the bits apart
loses nothing and lets one bit be a free value (R102) beside seven that are known. -/
structure CC where
  /-- Bit 7, Entire. -/
  e : Bool
  /-- Bit 6, FIRQ mask. -/
  f : Bool
  /-- Bit 5, half carry. -/
  h : Bool
  /-- Bit 4, IRQ mask. -/
  i : Bool
  /-- Bit 3, negative. -/
  n : Bool
  /-- Bit 2, zero. -/
  z : Bool
  /-- Bit 1, overflow. -/
  v : Bool
  /-- Bit 0, carry. -/
  c : Bool
  deriving DecidableEq, Repr

/-- The hidden state `wait` (R32). -/
inductive Wait where
  | none | sync | cwai
  deriving DecidableEq, Repr

/-! ## Memory -/

/-- The bytes that hold a stored value, as (address, byte) pairs in strictly rising order of address. -/
abbrev Memory := List Host.Cell

/-- What MEM_MAP says of an address that no device owns (R6, R59). -/
inductive Region where
  | ram | rom | unpopulated
  deriving DecidableEq, Repr

/-- One entry of MEM_MAP: the addresses `first` to `last`. -/
structure MapEntry where
  first : Nat
  last : Nat
  kind : Region
  deriving DecidableEq, Repr

/-! ## The devices -/

/-- The two ports of the MC6821 (R292). -/
inductive PortName where
  | a | b
  deriving DecidableEq, Repr

/-- One port of the MC6821 (R292 to R295). -/
structure PiaPort where
  /-- The output latch, the write side of the data register. -/
  latch : Byte
  /-- The data direction register: 1 makes a line an output (R293). -/
  ddr : Byte
  /-- Bits 5 to 0 of the control register. -/
  ctrl : BitVec 6
  /-- Bit 7 of the control register: CA1/CB1 requests an interrupt. -/
  irq1 : Bool
  /-- Bit 6 of the control register: CA2/CB2 requests an interrupt. -/
  irq2 : Bool
  /-- The levels the outside drives on the port's lines. -/
  pins : Byte
  /-- The level the outside drives on CA1/CB1. -/
  c1 : Bool
  /-- The level the outside drives on CA2/CB2. -/
  c2 : Bool
  deriving DecidableEq, Repr

/-- The MC6821 parallel port. -/
structure Pia where
  portA : PiaPort
  portB : PiaPort
  deriving DecidableEq, Repr

/-- The three timers of the MC6840 (R296). -/
inductive TimerNo where
  | t1 | t2 | t3
  deriving DecidableEq, Repr

/-- One timer of the MC6840 (R296 to R300). -/
structure Timer where
  latch : Word
  counter : Word
  ctrl : Byte
  /-- The timer's interrupt flag. -/
  irq : Bool
  /-- The status register has been read since the timer's counter was last read: the first half of R300's clearing. -/
  statusRead : Bool
  /-- The level of the square wave that the continuous mode makes (R299). -/
  wave : Bool
  deriving DecidableEq, Repr

/-- Where the clock pulses of a timer come from: the input C or the system clock E (R299). -/
inductive ClockSource where
  | external | system
  deriving DecidableEq, Repr

/-- The MC6840 timer (R296, R299): three timers, the two shared buffers, the divider and the gate of timer 3. -/
structure Ptm where
  timer1 : Timer
  timer2 : Timer
  timer3 : Timer
  msbBuffer : Byte
  lsbBuffer : Byte
  /-- How many clock pulses the divider by 8 of timer 3 has let pass since its last count (R299). -/
  divider3 : BitVec 3
  /-- The gate input G3 of timer 3 is active (R299). -/
  gate3 : Bool
  deriving DecidableEq, Repr

/-! ## The inputs -/

/-- What a device can do of its own, or the outside world to it, between two accesses of the CPU. -/
inductive DeviceEvent where
  /-- The outside drives the lines of a port of the MC6821. -/
  | portPins (p : PortName) (levels : Byte)
  /-- The outside drives CA1 or CB1. -/
  | controlLine1 (p : PortName) (level : Bool)
  /-- The outside drives CA2 or CB2. -/
  | controlLine2 (p : PortName) (level : Bool)
  /-- A clock pulse at a counter of the MC6840, the value it counts to if it counts, and whether that ends a count cycle. -/
  | timerClock (t : TimerNo) (source : ClockSource) (value : Word) (ends : Bool)
  /-- The gate input G3 of the MC6840 becomes active or inactive. -/
  | gate3 (active : Bool)
  /-- The keys of one row of the keyboard: bit k is set when the key on line k is pressed. -/
  | keyRow (row : Fin 7) (keys : BitVec 4)
  deriving DecidableEq, Repr

/-- What the CPU finds at one instruction boundary: IRQ_LINES (R6, R272), the RESET input (R331) and the device events since
the boundary before. `true` is active. -/
structure BoundaryInput where
  /-- RESET arrives at the boundary. -/
  reset : Bool
  /-- RESET arrives in the middle of what this boundary starts, when so many of its byte stores are done (R331). -/
  resetDuring : Option Nat
  nmi : Bool
  firq : Bool
  irq : Bool
  events : List DeviceEvent
  deriving DecidableEq, Repr

/-! ## The whole machine -/

/-- The state of the board. The fields `inputs`, `between` and `draws` are the model's own. -/
structure State where
  a : Byte
  b : Byte
  x : Word
  y : Word
  u : Word
  s : Word
  pc : Word
  dp : Byte
  cc : CC
  /-- NMI is ignored until S is first loaded (R32, R273). -/
  nmiArmed : Bool
  /-- An NMI edge is latched until the interrupt is taken (R32, R272). -/
  nmiPending : Bool
  wait : Wait
  /-- The levels last seen on the three inputs; `true` is active. -/
  nmiLine : Bool
  firqLine : Bool
  irqLine : Bool
  mem : Memory
  memMap : List MapEntry
  pia : Pia
  ptm : Ptm
  keys : Vector (BitVec 4) 7
  /-- The byte last stored to each display digit, S0 first (R304). -/
  display : Vector Byte 8
  /-- The inputs of the boundaries to come; when it is empty the lines keep their levels and no event happens. -/
  inputs : List BoundaryInput
  /-- What the devices do just before each coming access of the CPU to a device, within an instruction too (20_memory R49); when it is
  empty they do nothing there. -/
  between : List (List DeviceEvent)
  /-- How many free values have been drawn. -/
  draws : Nat
  deriving DecidableEq, Repr

/-- The model has no fault: "No instruction raises any other exception: there is no illegal-opcode trap, no address error, no
alignment fault, no privilege violation, no bus error" (R271). A type without a constructor, so safe. -/
inductive Fault where
  deriving DecidableEq, Repr

/-- Why the machine does not step. -/
inductive Refusal where
  /-- An instruction without a meaning yet; no arm raises it. Safe: the run stops. -/
  | notModelled (mnemonic : String)
  /-- `refuse("illegal opcode")`, raised by `step` (R87, D4). Safe: the spec gives the bytes no meaning and no trap. -/
  | illegalOpcode
  /-- `refuse("illegal indexed post-byte")`, raised by `step` (R80, D4). Safe, as above. -/
  | illegalPostbyte
  /-- `refuse("undefined TFR/EXG operand")`, raised by `step` and by TFR and EXG on an ill-formed term (R82, D4). Safe. -/
  | undefinedTransferOperand
  deriving DecidableEq, Repr

/-! ## Reset -/

/-- The condition codes after reset: I = F = 1 (R330, D13); the six flags the spec leaves unspecified are 0. DESIGN CHOICE,
unsafe (log 2). -/
def CC.reset : CC :=
  { e := false, f := true, h := false, i := true, n := false, z := false, v := false, c := false }

/-- A port of the MC6821 after reset: every register $00 (R295, R330). The outside's levels are 0. DESIGN CHOICE, unsafe
(log 16). -/
def PiaPort.reset : PiaPort :=
  { latch := 0, ddr := 0, ctrl := 0, irq1 := false, irq2 := false, pins := 0, c1 := false, c2 := false }

/-- A timer of the MC6840 after reset, with its control register (R330). The counter shows the latch value: PRESUMED, unsafe; the
square wave is low: DESIGN CHOICE, unsafe (log 20). -/
def Timer.reset (ctrl : Byte) : Timer :=
  { latch := 0xFFFF, counter := 0xFFFF, ctrl, irq := false, statusRead := false, wave := false }

/-- The MC6840 after reset: "bit 0 of CR#1 = 1, other control bits 0" (R330). Buffers and divider are 0 and the gate G3 is active:
DESIGN CHOICE, unsafe (log 20). -/
def Ptm.reset : Ptm :=
  { timer1 := Timer.reset 0x01, timer2 := Timer.reset 0, timer3 := Timer.reset 0, msbBuffer := 0, lsbBuffer := 0
    divider3 := 0, gate3 := true }

/-- MEM_MAP as the reset state has it. Every address R50 gives is of the kind R50 gives it; the bounds are not in the spec.
DESIGN CHOICE, unsafe (log 5). -/
def defaultMap : List MapEntry :=
  [{ first := 0x0000, last := 0xDFFF, kind := .ram }, { first := 0xE000, last := 0xEFFF, kind := .rom },
   { first := 0xF100, last := 0xFFFF, kind := .rom }]

/-- The machine right after reset (R330): PC from ROM_IMAGE at $FFFE/$FFFF (log 3), DP = $00, I = F = 1, NMI unarmed, no wait,
memory with nothing listed. A, B, X, Y, U, S are 0. DESIGN CHOICE, unsafe (log 1). -/
def State.reset : State where
  a := 0
  b := 0
  x := 0
  y := 0
  u := 0
  s := 0
  pc := catBytes (Config.romImage 0xFFFE) (Config.romImage 0xFFFF)
  dp := 0
  cc := CC.reset
  nmiArmed := false
  nmiPending := false
  wait := .none
  nmiLine := false
  firqLine := false
  irqLine := false
  mem := []
  memMap := defaultMap
  pia := { portA := PiaPort.reset, portB := PiaPort.reset }
  ptm := Ptm.reset
  keys := Vector.replicate 7 0
  display := Vector.replicate 8 0
  inputs := []
  between := []
  draws := 0

end Sys2Proof.Machine
end

