-- ==== Sys2Proof/Machine/Devices.lean ====
section
/-! DEFINITION. The devices of the board: where each register lies (20_memory R50), what a read or a write of the CPU does there,
and what the outside world does to them (60_exceptions R292 to R304). -/

namespace Sys2Proof.Machine

/-! ## Where the registers lie -/

/-- A device register the CPU can reach. -/
inductive DeviceReg where
  /-- DRA/DDRA at $F000, DRB/DDRB at $F002 (R292). -/
  | piaData (p : PortName)
  /-- CRA at $F001, CRB at $F003 (R292). -/
  | piaControl (p : PortName)
  /-- $F010 to $F016, one row of the keyboard each (R303). -/
  | keyRow (row : Fin 7)
  /-- $F018: CR#1 or CR#3 when written, nothing when read (R296). -/
  | ptmControl13
  /-- $F019: CR#2 when written, the status register when read (R296). -/
  | ptmControl2
  /-- $F01A, $F01C, $F01E: the MSB buffer when written, the counter's MSB when read (R296). -/
  | ptmMsb (t : TimerNo)
  /-- $F01B, $F01D, $F01F: the latches when written, the LSB buffer when read (R296). -/
  | ptmLsb (t : TimerNo)
  /-- $F020 + n and $F028 + n: display digit Sn (R304). -/
  | digit (n : Fin 8)
  deriving DecidableEq, Repr

/-- The device register at an address, if the address is a device's (R50). -/
def deviceAt (addr : Word) : Option DeviceReg :=
  let n := addr.toNat
  if n < 0xF000 then none
  else if n = 0xF000 then some (.piaData .a)
  else if n = 0xF001 then some (.piaControl .a)
  else if n = 0xF002 then some (.piaData .b)
  else if n = 0xF003 then some (.piaControl .b)
  else if h : 0xF010 ≤ n ∧ n ≤ 0xF016 then some (.keyRow ⟨n - 0xF010, by omega⟩)
  else if n = 0xF018 then some .ptmControl13
  else if n = 0xF019 then some .ptmControl2
  else if n = 0xF01A then some (.ptmMsb .t1)
  else if n = 0xF01B then some (.ptmLsb .t1)
  else if n = 0xF01C then some (.ptmMsb .t2)
  else if n = 0xF01D then some (.ptmLsb .t2)
  else if n = 0xF01E then some (.ptmMsb .t3)
  else if n = 0xF01F then some (.ptmLsb .t3)
  else if 0xF020 ≤ n ∧ n ≤ 0xF02F then some (.digit ⟨(n - 0xF020) % 8, Nat.mod_lt _ (by decide)⟩)
  else none

/-! ## Free values -/

/-- A state after one more free value has been drawn. -/
def nextDraw (st : State) : State := { st with draws := st.draws + 1 }

/-- A free bit, new at every draw (UNDEF_H, D20). -/
def drawBit (st : State) : Bool × State := (Config.freeBit st.draws, nextDraw st)

/-- A free byte, new at every draw. -/
def drawByte (st : State) : Byte × State := (Config.freeByte st.draws, nextDraw st)

/-- A free word, new at every draw. -/
def drawWord (st : State) : Word × State := (Config.freeWord st.draws, nextDraw st)

/-! ## MC6821 -/

/-- A port of the MC6821. -/
def portOf (p : PortName) (st : State) : PiaPort :=
  match p with
  | .a => st.pia.portA
  | .b => st.pia.portB

/-- A state with one port replaced. -/
def setPort (p : PortName) (v : PiaPort) (st : State) : State :=
  match p with
  | .a => { st with pia := { st.pia with portA := v } }
  | .b => { st with pia := { st.pia with portB := v } }

/-- The control register as it reads: bit 6 "reads 0 when bit 5 = 1" (R295). -/
def controlByte (p : PiaPort) : Byte :=
  BitVec.ofBool p.irq1 ++ BitVec.ofBool (p.irq2 && !p.ctrl.getLsbD 5) ++ p.ctrl

/-- What the data register reads on the lines that are outputs: the latch on port B; for port A the spec gives no value, so
the free byte (R295, log 16). -/
def outputLines (p : PortName) (port : PiaPort) (free : Byte) : Byte :=
  match p with
  | .a => free
  | .b => port.latch

/-- A read of the data address: DDR while bit 2 of the control register is 0 (R294), else the data register, which clears the
port's interrupt flags (R294, R295). Port A's output lines take a draw. -/
def readPiaData (p : PortName) (st : State) : Byte × State :=
  let port := portOf p st
  if port.ctrl.getLsbD 2 then
    let draw := drawByte st
    let free := match p with | .a => draw.2 | .b => st
    ((port.pins &&& ~~~port.ddr) ||| (outputLines p port draw.1 &&& port.ddr),
      setPort p { port with irq1 := false, irq2 := false } free)
  else (port.ddr, st)

/-- A write of the data address: DDR or the output latch (R292 to R295). -/
def writePiaData (p : PortName) (v : Byte) (st : State) : State :=
  let port := portOf p st
  if port.ctrl.getLsbD 2 then setPort p { port with latch := v } st else setPort p { port with ddr := v } st

/-- A write of the control register: bits 7 and 6 are read-only (R295). -/
def writePiaControl (p : PortName) (v : Byte) (st : State) : State :=
  setPort p { portOf p st with ctrl := v.setWidth 6 } st

/-- Whether a change of level is the active edge: rising when the edge bit is 1, falling when it is 0 (R295). -/
def activeEdge (rising old new : Bool) : Bool := (old != new) && (new == rising)

/-- CA1/CB1 takes a level; its active edge sets flag bit 7, whether or not the interrupt is enabled (R294, R295). -/
def driveLine1 (level : Bool) (p : PiaPort) : PiaPort :=
  { p with c1 := level, irq1 := p.irq1 || activeEdge (p.ctrl.getLsbD 1) p.c1 level }

/-- The outside drives a level on CA2/CB2; its active edge sets flag bit 6 when the line is an input (R295). While the line is an output
the level from outside is still followed, without a flag, and is what the first edge after bit 5 is 0 again is counted from, since R295
says nothing of it: DESIGN CHOICE (log 17). -/
def driveLine2 (level : Bool) (p : PiaPort) : PiaPort :=
  { p with c2 := level, irq2 := p.irq2 || (!p.ctrl.getLsbD 5 && activeEdge (p.ctrl.getLsbD 4) p.c2 level) }

/-- The level of CA2/CB2 as an output: bit 3 when bits 5 and 4 are 1 (R294). `none` when the line is an input, or an output in
the handshake or pulse mode, whose levels the spec does not give (log 17). -/
def controlOutput (p : PiaPort) : Option Bool :=
  if p.ctrl.getLsbD 5 && p.ctrl.getLsbD 4 then some (p.ctrl.getLsbD 3) else none

/-- The output IRQA/IRQB: "active while (bit 7 and bit 0) or (bit 6 and bit 3 and not bit 5)" (R295). -/
def portIrq (p : PiaPort) : Bool :=
  (p.irq1 && p.ctrl.getLsbD 0) || (p.irq2 && p.ctrl.getLsbD 3 && !p.ctrl.getLsbD 5)

/-! ## MC6840 -/

/-- A timer of the MC6840. -/
def timerOf (t : TimerNo) (p : Ptm) : Timer :=
  match t with
  | .t1 => p.timer1
  | .t2 => p.timer2
  | .t3 => p.timer3

/-- The MC6840 with one timer replaced. -/
def setTimer (t : TimerNo) (v : Timer) (p : Ptm) : Ptm :=
  match t with
  | .t1 => { p with timer1 := v }
  | .t2 => { p with timer2 := v }
  | .t3 => { p with timer3 := v }

/-- "bit 0 of CR#1 holds all counters while 1" (R299). -/
def ptmHeld (p : Ptm) : Bool := p.timer1.ctrl.getLsbD 0

/-- The output IRQ, bit 7 of the status register: "1 when any flag whose CR bit 6 is 1 is set" (R300). -/
def ptmIrq (p : Ptm) : Bool :=
  (p.timer1.irq && p.timer1.ctrl.getLsbD 6) || (p.timer2.irq && p.timer2.ctrl.getLsbD 6) ||
  (p.timer3.irq && p.timer3.ctrl.getLsbD 6)

/-- The status register: bit 7 the composite flag, bits 2 to 0 the flags of the timers 3 to 1, the rest 0 (R300). -/
def statusByte (p : Ptm) : Byte :=
  BitVec.ofBool (ptmIrq p) ++ 0#4 ++ BitVec.ofBool p.timer3.irq ++ BitVec.ofBool p.timer2.irq ++
  BitVec.ofBool p.timer1.irq

/-- The MC6840 with something done to every timer. -/
def mapTimers (f : Timer → Timer) (p : Ptm) : Ptm :=
  { p with timer1 := f p.timer1, timer2 := f p.timer2, timer3 := f p.timer3 }

/-- A timer with its interrupt flag cleared. -/
def clearTimerIrq (t : Timer) : Timer := { t with irq := false }

/-- A read of the status register, remembered by every timer (R300, log 19). -/
def readStatus (p : Ptm) : Byte × Ptm := (statusByte p, mapTimers (fun t => { t with statusRead := true }) p)

/-- A read of a counter's MSB: the LSB is captured in the LSB buffer (R298), and a status read before it clears the timer's
flag (R300, log 19). -/
def readCounterMsb (t : TimerNo) (p : Ptm) : Byte × Ptm :=
  let timer := timerOf t p
  (hiByte timer.counter,
    { setTimer t { timer with irq := timer.irq && !timer.statusRead, statusRead := false } p with
      lsbBuffer := loByte timer.counter })

/-- A timer with its counter preset from its latches: what holding does, "held in reset (preset)" (R299, log 18). -/
def presetTimer (t : Timer) : Timer := { t with counter := t.latch }

/-- A write at $F018: CR#1 while bit 0 of CR#2 is 1, else CR#3 (R296, R297); setting bit 0 of CR#1 clears the flags (R300) and
presets the counters (R299). -/
def writeControl13 (v : Byte) (p : Ptm) : Ptm :=
  if p.timer2.ctrl.getLsbD 0 then
    let q := setTimer .t1 { p.timer1 with ctrl := v } p
    if v.getLsbD 0 then mapTimers (fun t => presetTimer (clearTimerIrq t)) q else q
  else setTimer .t3 { p.timer3 with ctrl := v } p

/-- A write of a timer's latches: MSB buffer : byte (R298); it clears the timer's flag (R300), and a held counter is preset. -/
def writeLatch (t : TimerNo) (v : Byte) (p : Ptm) : Ptm :=
  let timer := timerOf t p
  let value := catBytes p.msbBuffer v
  setTimer t { clearTimerIrq timer with latch := value, counter := if ptmHeld p then value else timer.counter } p

/-- The mode of a timer, bits 5 to 3 of its control register: 000 is the continuous one; which code is which of the others is not
given (R299). -/
inductive TimerMode where
  | continuous
  /-- Single-shot, frequency comparison or pulse-width comparison. -/
  | other (code : BitVec 3)
  deriving DecidableEq, Repr

/-- A timer's mode (R299). -/
def modeOf (t : Timer) : TimerMode :=
  let code := t.ctrl.extractLsb' 3 3
  if code = 0 then .continuous else .other code

/-- The clock that bit 1 of a timer's control register selects (R299). -/
def clockOf (t : Timer) : ClockSource := if t.ctrl.getLsbD 1 then .system else .external

/-- What a timer counts with: one 16-bit counter, or two 8-bit counters while bit 2 of its control register is 1 (R299). -/
inductive CounterView where
  | one (value : Word)
  | two (msb lsb : Byte)
  deriving DecidableEq, Repr

/-- The counter or counters of a timer (R299). -/
def countersOf (t : Timer) : CounterView :=
  if t.ctrl.getLsbD 2 then .two (hiByte t.counter) (loByte t.counter) else .one t.counter

/-- The pin O of a timer: the square wave while bit 7 of the control register enables it, in the continuous mode. `none` where the
output is disabled, and in the other modes, whose levels the spec does not give (R299). That the continuous mode shows the same square
wave with two 8-bit counters, bit 2 = 1, where the heading speaks of the 16-bit mode: DESIGN CHOICE, unsafe (log 18). -/
def timerOutput (t : Timer) : Option Bool :=
  if t.ctrl.getLsbD 7 && modeOf t == .continuous then some t.wave else none

/-- Whether a clock pulse reaches a timer: no timer is held, the timer selects that clock, and, at timer 3, the gate is active
(R299). -/
def clockReaches (t : TimerNo) (source : ClockSource) (p : Ptm) : Bool :=
  !ptmHeld p && clockOf (timerOf t p) == source && (t != .t3 || p.gate3)

/-- A counter counts to a value; the end of a count cycle sets the timer's flag (R300), and in the continuous mode the square wave
changes its level (R299, log 18). -/
def countTo (t : TimerNo) (value : Word) (ends : Bool) (p : Ptm) : Ptm :=
  let timer := timerOf t p
  setTimer t { timer with
    counter := value, irq := timer.irq || ends, wave := timer.wave ^^ (ends && modeOf timer == .continuous) } p

/-- A clock pulse at a timer: where it reaches the timer it counts, at timer 3 with bit 0 of CR#3 set every eighth one (R299). -/
def clockTimer (t : TimerNo) (source : ClockSource) (value : Word) (ends : Bool) (p : Ptm) : Ptm :=
  if clockReaches t source p then
    if t == .t3 && p.timer3.ctrl.getLsbD 0 then
      let q := { p with divider3 := p.divider3 + 1 }
      if p.divider3 = 7 then countTo t value ends q else q
    else countTo t value ends p
  else p

/-! ## Accesses -/

/-- What one row of the keyboard reads: X1, X2, X4, X8 on bits 0 to 3 in the board's polarity, bits 7 to 4 free (R303,
log 22). -/
def keyRowByte (keys : BitVec 4) (free : Byte) : Byte :=
  free.extractLsb' 4 4 ++ (if Config.keyActive then keys else ~~~keys)

/-- A read of a device register by the CPU, with the side effects the device gives it. -/
def readDevice (d : DeviceReg) (st : State) : Byte × State :=
  match d with
  | .piaData p => readPiaData p st
  | .piaControl p => (controlByte (portOf p st), st)
  | .keyRow row => (keyRowByte (st.keys.get row) (drawByte st).1, (drawByte st).2)
  | .ptmControl13 => drawByte st
  | .ptmControl2 => ((readStatus st.ptm).1, { st with ptm := (readStatus st.ptm).2 })
  | .ptmMsb t => ((readCounterMsb t st.ptm).1, { st with ptm := (readCounterMsb t st.ptm).2 })
  | .ptmLsb _ => (st.ptm.lsbBuffer, st)
  | .digit _ => drawByte st

/-- A write of a device register by the CPU. The keyboard has no register to write (log 21). -/
def writeDevice (d : DeviceReg) (v : Byte) (st : State) : State :=
  match d with
  | .piaData p => writePiaData p v st
  | .piaControl p => writePiaControl p v st
  | .keyRow _ => st
  | .ptmControl13 => { st with ptm := writeControl13 v st.ptm }
  | .ptmControl2 => { st with ptm := setTimer .t2 { st.ptm.timer2 with ctrl := v } st.ptm }
  | .ptmMsb _ => { st with ptm := { st.ptm with msbBuffer := v } }
  | .ptmLsb t => { st with ptm := writeLatch t v st.ptm }
  | .digit n => { st with display := st.display.set n.val v n.isLt }

/-! ## The outside world -/

/-- What one event does to the devices. -/
def applyEvent (e : DeviceEvent) (st : State) : State :=
  match e with
  | .portPins p levels => setPort p { portOf p st with pins := levels } st
  | .controlLine1 p level => setPort p (driveLine1 level (portOf p st)) st
  | .controlLine2 p level => setPort p (driveLine2 level (portOf p st)) st
  | .timerClock t source value ends => { st with ptm := clockTimer t source value ends st.ptm }
  | .gate3 active => { st with ptm := { st.ptm with gate3 := active } }
  | .keyRow row keys => { st with keys := st.keys.set row.val keys row.isLt }

/-- The events of one boundary, in their order. -/
def applyEvents : List DeviceEvent → State → State
  | [], st => st
  | e :: es, st => applyEvents es (applyEvent e st)

/-- What comes between two byte accesses of one instruction: "nothing can come between them except a device changing its own
registers" (20_memory R49). It happens just before an access to a device, since no other access can tell (log 31). -/
def letDevicesMove (st : State) : State :=
  match st.between with
  | [] => st
  | es :: rest => applyEvents es { st with between := rest }

end Sys2Proof.Machine
end

