-- ==== Sys2Proof/Machine/Flags.lean ====
section
/-! DEFINITION. The condition codes as a byte (10_state R24), every flag computation of files 40 and 41 (R101 to R103 and the
instruction rules), and the branch conditions (42_branches R222). An operation takes the old CC and answers the result with
the new CC; the bits it does not name keep their value. -/

namespace Sys2Proof.Machine

/-! ## CC as a byte -/

/-- CC as software reads it: E F H I N Z V C, bits 7 to 0 (R24). -/
def ccByte (cc : CC) : Byte :=
  BitVec.ofBool cc.e ++ BitVec.ofBool cc.f ++ BitVec.ofBool cc.h ++ BitVec.ofBool cc.i ++
  BitVec.ofBool cc.n ++ BitVec.ofBool cc.z ++ BitVec.ofBool cc.v ++ BitVec.ofBool cc.c

/-- The condition codes a byte stands for (R24). -/
def ccOfByte (v : Byte) : CC :=
  { e := v.getLsbD 7, f := v.getLsbD 6, h := v.getLsbD 5, i := v.getLsbD 4
    n := v.getLsbD 3, z := v.getLsbD 2, v := v.getLsbD 1, c := v.getLsbD 0 }

/-- `CC and m`, all eight bits (R113). -/
def andCC (m : Byte) (cc : CC) : CC :=
  { e := cc.e && m.getLsbD 7, f := cc.f && m.getLsbD 6, h := cc.h && m.getLsbD 5, i := cc.i && m.getLsbD 4
    n := cc.n && m.getLsbD 3, z := cc.z && m.getLsbD 2, v := cc.v && m.getLsbD 1, c := cc.c && m.getLsbD 0 }

/-- `CC or m`, all eight bits (R177). -/
def orCC (m : Byte) (cc : CC) : CC :=
  { e := cc.e || m.getLsbD 7, f := cc.f || m.getLsbD 6, h := cc.h || m.getLsbD 5, i := cc.i || m.getLsbD 4
    n := cc.n || m.getLsbD 3, z := cc.z || m.getLsbD 2, v := cc.v || m.getLsbD 1, c := cc.c || m.getLsbD 0 }

/-! ## N and Z -/

/-- `setNZ8` (R12). -/
def setNZ8 (r : Byte) (cc : CC) : CC := { cc with n := r.msb, z := r == 0 }

/-- `setNZ16` (R12). -/
def setNZ16 (r : Word) (cc : CC) : CC := { cc with n := r.msb, z := r == 0 }

/-- N and Z from a byte, V cleared: loads, stores, tests and the logical instructions (R111, R148, R208). -/
def setNZ8V0 (r : Byte) (cc : CC) : CC := { setNZ8 r cc with v := false }

/-- N and Z from a word, V cleared: the 16-bit loads and stores (R150, R195). -/
def setNZ16V0 (r : Word) (cc : CC) : CC := { setNZ16 r cc with v := false }

/-! ## Addition and subtraction -/

/-- `add8(a, m, c)` (R101). -/
def add8 (a m : Byte) (c : Bool) (cc : CC) : Byte × CC :=
  let s := a.toNat + m.toNat + c.toNat
  let r := BitVec.ofNat 8 s
  (r, { setNZ8 r cc with
        h := decide (a.toNat % 16 + m.toNat % 16 + c.toNat > 15)
        v := a.msb == m.msb && r.msb != a.msb
        c := decide (s > 255) })

/-- `sub8(a, m, c)`, with the undefined H drawn by the caller (R102). -/
def sub8 (h : Bool) (a m : Byte) (c : Bool) (cc : CC) : Byte × CC :=
  let d : Int := (a.toNat : Int) - m.toNat - c.toNat
  let r := BitVec.ofInt 8 d
  (r, { setNZ8 r cc with h, v := a.msb != m.msb && r.msb != a.msb, c := decide (d < 0) })

/-- `add16(a, m)` (R103). -/
def add16 (a m : Word) (cc : CC) : Word × CC :=
  let s := a.toNat + m.toNat
  let r := BitVec.ofNat 16 s
  (r, { setNZ16 r cc with v := a.msb == m.msb && r.msb != a.msb, c := decide (s > 65535) })

/-- `sub16(a, m)` (R103). -/
def sub16 (a m : Word) (cc : CC) : Word × CC :=
  let d : Int := (a.toNat : Int) - m.toNat
  let r := BitVec.ofInt 16 d
  (r, { setNZ16 r cc with v := a.msb != m.msb && r.msb != a.msb, c := decide (d < 0) })

/-- NEG: `0 - m`, V when m = $80, C when m is not 0, H undefined (R171). -/
def neg8 (h : Bool) (m : Byte) (cc : CC) : Byte × CC :=
  let r := 0 - m
  (r, { setNZ8 r cc with h, v := m == 0x80, c := m != 0 })

/-- INC: V when m = $7F, C kept (R143). -/
def inc8 (m : Byte) (cc : CC) : Byte × CC :=
  let r := m + 1
  (r, { setNZ8 r cc with v := m == 0x7F })

/-- DEC: V when m = $80, C kept (R137). -/
def dec8 (m : Byte) (cc : CC) : Byte × CC :=
  let r := m - 1
  (r, { setNZ8 r cc with v := m == 0x80 })

/-! ## Logic -/

/-- A logical result: N and Z, V cleared (R111, R140, R175). -/
def logic8 (r : Byte) (cc : CC) : Byte × CC := (r, setNZ8V0 r cc)

/-- COM: V cleared, C set (R132, log 29). -/
def com8 (m : Byte) (cc : CC) : Byte × CC :=
  let r := ~~~m
  (r, { setNZ8V0 r cc with c := true })

/-- CLR: N Z V C become 0 1 0 0 (R122). -/
def clr8 (cc : CC) : Byte × CC := (0, { cc with n := false, z := true, v := false, c := false })

/-! ## Shifts and rotates -/

/-- ASL, LSL: V is the exclusive or of the old bits 7 and 6, H undefined (R114). -/
def asl8 (h : Bool) (m : Byte) (cc : CC) : Byte × CC :=
  let r := m <<< 1
  (r, { setNZ8 r cc with h, v := m.getLsbD 7 ^^ m.getLsbD 6, c := m.getLsbD 7 })

/-- ASR: bit 7 is kept, bit 0 goes to C, V kept, H undefined (R117). -/
def asr8 (h : Bool) (m : Byte) (cc : CC) : Byte × CC :=
  let r := (m >>> 1) ||| (m &&& 0x80)
  (r, { setNZ8 r cc with h, c := m.getLsbD 0 })

/-- LSR: bit 0 goes to C, N cleared, V kept (R167). -/
def lsr8 (m : Byte) (cc : CC) : Byte × CC :=
  let r := m >>> 1
  (r, { cc with n := false, z := r == 0, c := m.getLsbD 0 })

/-- ROL: the old C enters bit 0, bit 7 goes to C (R182). -/
def rol8 (m : Byte) (cc : CC) : Byte × CC :=
  let r := (m <<< 1) ||| (BitVec.ofBool cc.c).setWidth 8
  (r, { setNZ8 r cc with v := m.getLsbD 7 ^^ m.getLsbD 6, c := m.getLsbD 7 })

/-- ROR: the old C enters bit 7, bit 0 goes to C, V kept (R185). -/
def ror8 (m : Byte) (cc : CC) : Byte × CC :=
  let r := (m >>> 1) ||| ((BitVec.ofBool cc.c).setWidth 8 <<< 7)
  (r, { setNZ8 r cc with c := m.getLsbD 0 })

/-! ## DAA, MUL, SEX -/

/-- The correction DAA adds (R136). -/
def daaCorrection (a : Byte) (cc : CC) : Nat :=
  let lo := a.toNat % 16
  let hi := a.toNat / 16
  (if cc.h || decide (lo > 9) then 0x06 else 0) +
  (if cc.c || decide (hi > 9) || (decide (hi > 8) && decide (lo > 9)) then 0x60 else 0)

/-- DAA: C is set by a decimal carry and never cleared, V cleared, H kept (R136, log 29). -/
def daa8 (a : Byte) (cc : CC) : Byte × CC :=
  let s := a.toNat + daaCorrection a cc
  let r := BitVec.ofNat 8 s
  (r, { setNZ8V0 r cc with c := cc.c || decide (s > 255) })

/-- MUL: the unsigned product, Z from all 16 bits, C is bit 7 of the product (R170). -/
def mul8 (a b : Byte) (cc : CC) : Word × CC :=
  let p := zext8 a * zext8 b
  (p, { cc with z := p == 0, c := p.getLsbD 7 })

/-- SEX: the high byte that extends B's sign, N and Z of B, V cleared (R192, log 29). -/
def sex8 (b : Byte) (cc : CC) : Byte × CC :=
  (if b.msb then 0xFF else 0x00, setNZ8V0 b cc)

/-! ## Branch conditions -/

/-- The conditions of R222. -/
inductive Cond where
  | always | never | hi | ls | cc | cs | ne | eq | vc | vs | pl | mi | ge | lt | gt | le
  deriving DecidableEq, Repr

/-- The column "Branch if" of R222. -/
def holds : Cond → CC → Bool
  | .always, _ => true
  | .never, _ => false
  | .hi, f => !(f.c || f.z)
  | .ls, f => f.c || f.z
  | .cc, f => !f.c
  | .cs, f => f.c
  | .ne, f => !f.z
  | .eq, f => f.z
  | .vc, f => !f.v
  | .vs, f => f.v
  | .pl, f => !f.n
  | .mi, f => f.n
  | .ge, f => !(f.n ^^ f.v)
  | .lt, f => f.n ^^ f.v
  | .gt, f => !(f.z || (f.n ^^ f.v))
  | .le, f => f.z || (f.n ^^ f.v)

end Sys2Proof.Machine
end

