-- ==== Sys2Proof/Machine/Ops.lean ====
section
/-! DEFINITION. The named operations over memory and registers: the bus (20_memory R42 to R59), the stacks (R46, R47), the
registers by name (10_state R22, 30_encoding R82), and taking and returning from an interrupt (60_exceptions R276 to R284,
70_reset_and_hazards R331). -/

namespace Sys2Proof.Machine

/-! ## The byte list -/

/-- The byte stored at an address, if one is. -/
def Memory.get : Memory → Nat → Option Byte
  | [], _ => none
  | cell :: rest, n => if cell.1 = n then some cell.2 else Memory.get rest n

/-- The memory with one byte stored; the addresses stay in rising order. -/
def Memory.put (n : Nat) (v : Byte) : Memory → Memory
  | [] => [(n, v)]
  | cell :: rest =>
    if n < cell.1 then (n, v) :: cell :: rest
    else if n = cell.1 then (n, v) :: rest
    else cell :: Memory.put n v rest

/-- Every address of the list lies above a bound and below 2^16, and the addresses rise strictly. -/
def Memory.risesFrom : Nat → Memory → Bool
  | _, [] => true
  | lo, cell :: rest => decide (lo ≤ cell.1) && decide (cell.1 < 65536) && Memory.risesFrom (cell.1 + 1) rest

/-- The canonical form: addresses below 2^16, strictly rising. An unlisted address holds no stored value, so no entry can
equal what an unlisted address reads as (log 4). -/
def Memory.wf (m : Memory) : Bool := Memory.risesFrom 0 m

/-! ## The bus -/

/-- What MEM_MAP says of an address: its first entry that covers the address; unpopulated where there is none (R59). -/
def regionIn : List MapEntry → Nat → Region
  | [], _ => .unpopulated
  | e :: es, n => if e.first ≤ n ∧ n ≤ e.last then e.kind else regionIn es n

/-- What answers an access: a device at its fixed addresses (R50), else what MEM_MAP says. -/
inductive BusTarget where
  | device (d : DeviceReg)
  | memory (r : Region)
  deriving DecidableEq, Repr

/-- What answers an access at an address. -/
def busTarget (addr : Word) (st : State) : BusTarget :=
  match deviceAt addr with
  | some d => .device d
  | none => .memory (regionIn st.memMap addr.toNat)

/-- The byte a RAM or ROM address holds: the stored one; where none is stored, ROM_IMAGE in ROM (R8, log 3) and the free
power-on value elsewhere (R34, log 4). -/
def cellByte (addr : Word) (st : State) : Byte :=
  match st.mem.get addr.toNat with
  | some v => v
  | none => if regionIn st.memMap addr.toNat = .rom then Config.romImage addr else Config.powerOnByte addr

/-- `MemRead(addr, 1)` (R42): RAM and ROM answer their byte, a device, which may first change its own registers,
what it answers with its side effects (R49), an unpopulated address any byte (R59). -/
def readByte (addr : Word) (st : State) : Byte × State :=
  match busTarget addr st with
  | .device d => readDevice d (letDevicesMove st)
  | .memory .ram => (cellByte addr st, st)
  | .memory .rom => (cellByte addr st, st)
  | .memory .unpopulated => drawByte st

/-- `MemWrite(addr, 1, v)` (R42): a device may first change its own registers (R49); a write to ROM or to an unpopulated
address changes no state (R59). -/
def writeByte (addr : Word) (v : Byte) (st : State) : State :=
  match busTarget addr st with
  | .device d => writeDevice d v (letDevicesMove st)
  | .memory .ram => { st with mem := st.mem.put addr.toNat v }
  | .memory .rom => st
  | .memory .unpopulated => st

/-- `MemRead(addr, 2)`: the byte at addr, the high one, is read first, then the byte at addr + 1 mod 2^16 (R43 to R45). -/
def readWord (addr : Word) (st : State) : Word × State :=
  let h := readByte addr st
  let l := readByte (addr + 1) h.2
  (catBytes h.1 l.1, l.2)

/-- `MemWrite(addr, 2, v)`: the high byte is written at addr first, then the low byte at addr + 1 mod 2^16 (R43 to R45). -/
def writeWord (addr : Word) (v : Word) (st : State) : State :=
  writeByte (addr + 1) (loByte v) (writeByte addr (hiByte v) st)

/-! ## Registers by name -/

/-- D, the pair A : B (R22). -/
def regD (st : State) : Word := catBytes st.a st.b

/-- A write of D writes both halves (R22). -/
def setD (v : Word) (st : State) : State := { st with a := hiByte v, b := loByte v }

/-- A load of S by an instruction arms NMI (R273). -/
def loadS (v : Word) (st : State) : State := { st with s := v, nmiArmed := true }

/-- The two accumulators. -/
inductive Acc where
  | a | b
  deriving DecidableEq, Repr

/-- An accumulator's value. -/
def getAcc : Acc → State → Byte
  | .a, st => st.a
  | .b, st => st.b

/-- A state with an accumulator written. -/
def setAcc (r : Acc) (v : Byte) (st : State) : State :=
  match r with
  | .a => { st with a := v }
  | .b => { st with b := v }

/-- An index register's value (R68). -/
def getIdx : IdxReg → State → Word
  | .x, st => st.x
  | .y, st => st.y
  | .u, st => st.u
  | .s, st => st.s

/-- A state with an index register written by auto-increment or auto-decrement, which does not arm NMI (R75, R76, R273). -/
def setIdx (r : IdxReg) (v : Word) (st : State) : State :=
  match r with
  | .x => { st with x := v }
  | .y => { st with y := v }
  | .u => { st with u := v }
  | .s => { st with s := v }

/-- The 16-bit registers that loads, stores, compares and additions name. -/
inductive Reg16 where
  | d | x | y | u | s
  deriving DecidableEq, Repr

/-- A 16-bit register's value. -/
def getReg16 : Reg16 → State → Word
  | .d, st => regD st
  | .x, st => st.x
  | .y, st => st.y
  | .u, st => st.u
  | .s, st => st.s

/-- A state with a 16-bit register loaded; loading S arms NMI (R273). -/
def loadReg16 (r : Reg16) (v : Word) (st : State) : State :=
  match r with
  | .d => setD v st
  | .x => { st with x := v }
  | .y => { st with y := v }
  | .u => { st with u := v }
  | .s => loadS v st

/-- The value of a register that TFR or EXG names; an 8-bit one extended with zeros (R82). PC holds the address of the next
instruction (R27, R142, R207). -/
def getReg (r : Reg) (st : State) : Word :=
  match r with
  | .d => regD st
  | .x => st.x
  | .y => st.y
  | .u => st.u
  | .s => st.s
  | .pc => st.pc
  | .a => zext8 st.a
  | .b => zext8 st.b
  | .cc => zext8 (ccByte st.cc)
  | .dp => zext8 st.dp

/-- A state with a register that TFR or EXG names written; an 8-bit one takes the low byte; S arms NMI (R142, R207, R273). -/
def setReg (r : Reg) (v : Word) (st : State) : State :=
  match r with
  | .d => setD v st
  | .x => { st with x := v }
  | .y => { st with y := v }
  | .u => { st with u := v }
  | .s => loadS v st
  | .pc => { st with pc := v }
  | .a => { st with a := loByte v }
  | .b => { st with b := loByte v }
  | .cc => { st with cc := ccOfByte (loByte v) }
  | .dp => { st with dp := loByte v }

/-! ## The stacks -/

/-- The two stack pointers (R29). -/
inductive StackPtr where
  | s | u
  deriving DecidableEq, Repr

/-- A stack pointer's value. -/
def getSp : StackPtr → State → Word
  | .s, st => st.s
  | .u, st => st.u

/-- A state with a stack pointer moved; a push or a pull does not arm NMI (R273). -/
def setSp (p : StackPtr) (v : Word) (st : State) : State :=
  match p with
  | .s => { st with s := v }
  | .u => { st with u := v }

/-- `Push8`: decrement, then write (R46). -/
def push8 (p : StackPtr) (v : Byte) (st : State) : State :=
  let sp := getSp p st - 1
  writeByte sp v (setSp p sp st)

/-- `Push16`: the low byte first, so that the high byte ends at the lower address (R46). -/
def push16 (p : StackPtr) (v : Word) (st : State) : State := push8 p (hiByte v) (push8 p (loByte v) st)

/-- `Pull8`: read, then increment (R47). -/
def pull8 (p : StackPtr) (st : State) : Byte × State :=
  let r := readByte (getSp p st) st
  (r.1, setSp p (getSp p r.2 + 1) r.2)

/-- `Pull16`: the high byte first (R47). -/
def pull16 (p : StackPtr) (st : State) : Word × State :=
  let h := pull8 p st
  let l := pull8 p h.2
  (catBytes h.1 l.1, l.2)

/-! ## Registers pulled from a stack -/

/-- `CC <- Pull8` (R180, R188). -/
def pullCC (p : StackPtr) (st : State) : State :=
  let v := pull8 p st
  { v.2 with cc := ccOfByte v.1 }

/-- `A <- Pull8` (R180, R188). -/
def pullA (p : StackPtr) (st : State) : State :=
  let v := pull8 p st
  { v.2 with a := v.1 }

/-- `B <- Pull8` (R180, R188). -/
def pullB (p : StackPtr) (st : State) : State :=
  let v := pull8 p st
  { v.2 with b := v.1 }

/-- `DP <- Pull8` (R180, R188). -/
def pullDP (p : StackPtr) (st : State) : State :=
  let v := pull8 p st
  { v.2 with dp := v.1 }

/-- `X <- Pull16` (R180, R188). -/
def pullX (p : StackPtr) (st : State) : State :=
  let v := pull16 p st
  { v.2 with x := v.1 }

/-- `Y <- Pull16` (R180, R188). -/
def pullY (p : StackPtr) (st : State) : State :=
  let v := pull16 p st
  { v.2 with y := v.1 }

/-- What a pulled word does to the other stack pointer: U is loaded, S is loaded and NMI armed (R180, R181, R273). -/
def setOtherSp (p : StackPtr) (v : Word) (st : State) : State :=
  match p with
  | .s => { st with u := v }
  | .u => loadS v st

/-- `U <- Pull16(S)` or `S <- Pull16(U)` (R180, R181, R188). -/
def pullOther (p : StackPtr) (st : State) : State :=
  let v := pull16 p st
  setOtherSp p v.1 v.2

/-- `pc <- Pull16` (R180, R188, R189). -/
def pullPC (p : StackPtr) (st : State) : State :=
  let v := pull16 p st
  { v.2 with pc := v.1 }

/-! ## Taking an interrupt -/

/-- The ways to leave the sequential flow through a vector other than RESET (R270). -/
inductive Interrupt where
  | nmi | firq | irq | swi | swi2 | swi3
  deriving DecidableEq, Repr

/-- The address of an interrupt's vector (R274). -/
def vectorOf : Interrupt → Word
  | .swi3 => 0xFFF2
  | .swi2 => 0xFFF4
  | .firq => 0xFFF6
  | .irq => 0xFFF8
  | .swi => 0xFFFA
  | .nmi => 0xFFFC

/-- The address of the RESET vector (R274). -/
def resetVector : Word := 0xFFFE

/-- The entire frame, 12 bytes on the S stack: PC, U, Y, X, DP, B, A and CC as it stands (R276, R282). -/
def pushEntireFrame (st : State) : State :=
  push8 .s (ccByte st.cc) <| push8 .s st.a <| push8 .s st.b <| push8 .s st.dp <|
    push16 .s st.x <| push16 .s st.y <| push16 .s st.u <| push16 .s st.pc st

/-- The short frame of a FIRQ, 3 bytes on the S stack: PC and CC as it stands (R276, R282). -/
def pushShortFrame (st : State) : State := push8 .s (ccByte st.cc) <| push16 .s st.pc st

/-- A state with the E bit written. -/
def setE (v : Bool) (st : State) : State := { st with cc := { st.cc with e := v } }

/-- The stacking of R276: none after CWAI, whose frame is already there; E cleared and the short frame for a FIRQ; E set and the
entire frame for every other kind. -/
def stackFor (k : Interrupt) (st : State) : State :=
  match st.wait with
  | .cwai => st
  | _ => match k with
    | .firq => pushShortFrame (setE false st)
    | _ => pushEntireFrame (setE true st)

/-- The masks of each kind, set after stacking (R275, R277 to R281, R287). -/
def maskFor (k : Interrupt) (cc : CC) : CC :=
  match k with
  | .nmi | .firq | .swi => { cc with i := true, f := true }
  | .irq => { cc with i := true }
  | .swi2 | .swi3 => cc

/-- `pc <- MemRead(addr, 2)`: control goes through a vector (R274, R276). -/
def jumpThrough (addr : Word) (st : State) : State :=
  let v := readWord addr st
  { v.2 with pc := v.1 }

/-- What an entry does to the hidden state and the masks before PC is loaded: the wait ends, the masks are set, an NMI entry clears
the pending edge (R276, R277). -/
def enterHandler (k : Interrupt) (st : State) : State :=
  { st with
    wait := .none
    cc := maskFor k st.cc
    nmiPending := (match k with | .nmi => false | _ => st.nmiPending) }

/-- `raise Interrupt(kind)`: stack, end the wait, set the masks, load PC from the vector (R276). -/
def raiseInterrupt (k : Interrupt) (st : State) : State :=
  jumpThrough (vectorOf k) (enterHandler k (stackFor k st))

/-- What RTI pulls between CC and PC when the pulled E is 1: A, B, DP, X, Y, U (R188). -/
def pullRest (st : State) : State :=
  pullOther .s <| pullY .s <| pullX .s <| pullDP .s <| pullB .s <| pullA .s st

/-- Return from interrupt: CC, then, if the pulled E is 1, the rest of the entire frame, then PC (R188, R284). -/
def returnFromInterrupt (st : State) : State :=
  let st := pullCC .s st
  pullPC .s (if st.cc.e then pullRest st else st)

/-! ## RESET -/

/-- A port of the MC6821 reset; the levels the outside drives stay (R295, R330). -/
def resetPort (p : PiaPort) : PiaPort := { PiaPort.reset with pins := p.pins, c1 := p.c1, c2 := p.c2 }

/-- The n-th free value after the ones drawn so far. -/
def drawn {α : Type} (free : Nat → α) (st : State) (n : Nat) : α := free (st.draws + n)

/-- A timer of the MC6840 after a RESET input: what R330 fixes, and free values for its counter, its read history and the level of
its square wave. -/
def resetTimer (ctrl : Byte) (n : Nat) (st : State) : Timer :=
  { Timer.reset ctrl with
    counter := drawn Config.freeWord st n, statusRead := drawn Config.freeBit st n, wave := drawn Config.freeBit st (n + 13) }

/-- The state a RESET input leaves before PC is loaded: what R330 fixes; everything R330 calls unspecified is a free value;
memory, MEM_MAP and the outside's levels stay (R331, log 11). -/
def resetFields (st : State) : State :=
  { st with
    a := drawn Config.freeByte st 0
    b := drawn Config.freeByte st 1
    x := drawn Config.freeWord st 2
    y := drawn Config.freeWord st 3
    u := drawn Config.freeWord st 4
    s := drawn Config.freeWord st 5
    dp := 0
    cc := { e := drawn Config.freeBit st 6, f := true, h := drawn Config.freeBit st 7, i := true
            n := drawn Config.freeBit st 8, z := drawn Config.freeBit st 9, v := drawn Config.freeBit st 10
            c := drawn Config.freeBit st 11 }
    nmiArmed := false
    nmiPending := false
    wait := .none
    pia := { portA := resetPort st.pia.portA, portB := resetPort st.pia.portB }
    ptm := { timer1 := resetTimer 0x01 12 st, timer2 := resetTimer 0 13 st, timer3 := resetTimer 0 14 st
             msbBuffer := drawn Config.freeByte st 15, lsbBuffer := drawn Config.freeByte st 16
             divider3 := (drawn Config.freeWord st 28).setWidth 3, gate3 := st.ptm.gate3 }
    display := Vector.ofFn fun k : Fin 8 => drawn Config.freeByte st (17 + k.val)
    draws := st.draws + 29 }

/-- A RESET input: the fields, then PC from $FFFE/$FFFF; nothing is stacked (R331). -/
def resetEntry (st : State) : State := jumpThrough resetVector (resetFields st)

end Sys2Proof.Machine
end

