-- ==== Sys2Proof/Machine/Operands.lean ====
section
/-! DEFINITION. The addressing modes (30_encoding R63 to R81), the operand fetch (R100), and the shapes the instruction meanings
share: an accumulator with an operand, a read-modify-write of memory (R104), a 16-bit load, store and compare, a branch
(42_branches R221). A meaning runs in a state whose PC is already the address of the next instruction (10_state R27). -/

namespace Sys2Proof.Machine

/-- How a meaning answers. -/
abbrev Result := Host.Outcome State Fault Refusal

/-! ## Effective addresses -/

/-- `EA0` of an indexed form, before any indirection, with the auto-increment or auto-decrement done (R69 to R81). -/
def indexedBase (m : Indexed) (st : State) : Word × State :=
  match m with
  | .off5 r n => (getIdx r st + sext5 n, st)
  | .noOff r _ => (getIdx r st, st)
  | .off8 r n _ => (getIdx r st + sext8 n, st)
  | .off16 r n _ => (getIdx r st + n, st)
  | .accA r _ => (getIdx r st + sext8 st.a, st)
  | .accB r _ => (getIdx r st + sext8 st.b, st)
  | .accD r _ => (getIdx r st + regD st, st)
  | .inc1 r => (getIdx r st, setIdx r (getIdx r st + 1) st)
  | .inc2 r _ => (getIdx r st, setIdx r (getIdx r st + 2) st)
  | .dec1 r => (getIdx r st - 1, setIdx r (getIdx r st - 1) st)
  | .dec2 r _ => (getIdx r st - 2, setIdx r (getIdx r st - 2) st)
  | .pcr8 n _ => (st.pc + sext8 n, st)
  | .pcr16 n _ => (st.pc + n, st)
  | .extInd n => (n, st)

/-- The effective address of an indexed form: an indirect one reads the 16-bit pointer at `EA0` (R77, R79). -/
def indexedAddress (m : Indexed) (st : State) : Word × State :=
  let ea := indexedBase m st
  if isIndirect m then readWord ea.1 ea.2 else ea

/-- `EA(mode)`: direct is DP : byte (R66), extended is the word (R67). -/
def effectiveAddress (m : MemOperand) (st : State) : Word × State :=
  match m with
  | .direct a => (catBytes st.dp a, st)
  | .extended a => (a, st)
  | .indexed m => indexedAddress m st

/-! ## Operands -/

/-- `Operand8(mode)` (R100). -/
def operand8 (src : Src8) (st : State) : Byte × State :=
  match src with
  | .imm v => (v, st)
  | .mem m =>
    let ea := effectiveAddress m st
    readByte ea.1 ea.2

/-- `Operand16(mode)` (R100). -/
def operand16 (src : Src16) (st : State) : Word × State :=
  match src with
  | .imm v => (v, st)
  | .mem m =>
    let ea := effectiveAddress m st
    readWord ea.1 ea.2

/-! ## 8-bit shapes -/

/-- An accumulator and an operand give the accumulator and the flags (R106, R111). -/
def accOperand (r : Acc) (f : Byte → Byte → CC → Byte × CC) (src : Src8) (st : State) : State :=
  let m := operand8 src st
  let res := f (getAcc r m.2) m.1 m.2.cc
  setAcc r res.1 { m.2 with cc := res.2 }

/-- The flags of `accOperand` without the result (R120, R125). -/
def testOperand (r : Acc) (f : Byte → Byte → CC → Byte × CC) (src : Src8) (st : State) : State :=
  let m := operand8 src st
  { m.2 with cc := (f (getAcc r m.2) m.1 m.2.cc).2 }

/-- An operation on an accumulator alone (R114, R122, R137). -/
def accUnary (r : Acc) (f : Byte → CC → Byte × CC) (st : State) : State :=
  let res := f (getAcc r st) st.cc
  setAcc r res.1 { st with cc := res.2 }

/-- Read-modify-write of a memory byte: one read, then one write, at the same address (R104). -/
def memUnary (f : Byte → CC → Byte × CC) (m : MemOperand) (st : State) : State :=
  let ea := effectiveAddress m st
  let v := readByte ea.1 ea.2
  let res := f v.1 v.2.cc
  writeByte ea.1 res.1 { v.2 with cc := res.2 }

/-- Gives an operation that leaves H undefined a free bit for it, drawn afresh at each execution (R102, U5, log 6). -/
def withFreeH (op : Bool → State → State) (st : State) : State :=
  let h := drawBit st
  op h.1 h.2

/-- A load of an accumulator: N and Z from the value, V cleared (R148). -/
def loadAcc (r : Acc) (src : Src8) (st : State) : State :=
  let m := operand8 src st
  setAcc r m.1 { m.2 with cc := setNZ8V0 m.1 m.2.cc }

/-- A store of an accumulator: no read; N and Z from the value, V cleared (R49, R193). -/
def storeAcc (r : Acc) (m : MemOperand) (st : State) : State :=
  let ea := effectiveAddress m st
  let v := getAcc r ea.2
  writeByte ea.1 v { ea.2 with cc := setNZ8V0 v ea.2.cc }

/-! ## 16-bit shapes -/

/-- A 16-bit register and an operand give the register and the flags (R110, R202). -/
def wordOperand (r : Reg16) (f : Word → Word → CC → Word × CC) (src : Src16) (st : State) : State :=
  let m := operand16 src st
  let res := f (getReg16 r m.2) m.1 m.2.cc
  loadReg16 r res.1 { m.2 with cc := res.2 }

/-- A 16-bit compare: the flags of the subtraction (R127). -/
def compareWord (r : Reg16) (src : Src16) (st : State) : State :=
  let m := operand16 src st
  { m.2 with cc := (sub16 (getReg16 r m.2) m.1 m.2.cc).2 }

/-- A 16-bit load: N and Z from the value, V cleared (R150). -/
def loadWord (r : Reg16) (src : Src16) (st : State) : State :=
  let m := operand16 src st
  loadReg16 r m.1 { m.2 with cc := setNZ16V0 m.1 m.2.cc }

/-- A 16-bit store: N and Z from the value, V cleared (R195). -/
def storeWord (r : Reg16) (m : MemOperand) (st : State) : State :=
  let ea := effectiveAddress m st
  let v := getReg16 r ea.2
  writeWord ea.1 v { ea.2 with cc := setNZ16V0 v ea.2.cc }

/-! ## Control flow and lists -/

/-- `if condition then pc <- PC + off` (R221); PC is the address after the branch. -/
def branchIf (c : Cond) (off : Word) (st : State) : State :=
  if holds c st.cc then { st with pc := st.pc + off } else st

/-- Push the return address on the S stack and jump (R147, R255). -/
def callTo (target : Word) (st : State) : State := { push16 .s st.pc st with pc := target }

/-- A transfer of a register list does one of its transfers (R178 to R181). -/
def doIf (c : Bool) (f : State → State) (st : State) : State := if c then f st else st

/-- How many bytes a register list transfers (R83). -/
def listBytes (list : Byte) : Nat :=
  (List.range 8).foldl (fun n k => n + if list.getLsbD k then (if k < 4 then 1 else 2) else 0) 0

/-- The stack pointer that bit 6 of a register list names: the other one (R83). -/
def otherSp : StackPtr → StackPtr
  | .s => .u
  | .u => .s

/-- PSHS, PSHU: from bit 7 down to bit 0 (R178, R179). -/
def pushList (p : StackPtr) (list : Byte) (st : State) : State :=
  doIf (list.getLsbD 0) (push8 p (ccByte st.cc)) <|
  doIf (list.getLsbD 1) (push8 p st.a) <|
  doIf (list.getLsbD 2) (push8 p st.b) <|
  doIf (list.getLsbD 3) (push8 p st.dp) <|
  doIf (list.getLsbD 4) (push16 p st.x) <|
  doIf (list.getLsbD 5) (push16 p st.y) <|
  doIf (list.getLsbD 6) (push16 p (getSp (otherSp p) st)) <|
  doIf (list.getLsbD 7) (push16 p st.pc) st

/-- PULS, PULU: from bit 0 up to bit 7 (R180, R181). -/
def pullList (p : StackPtr) (list : Byte) (st : State) : State :=
  doIf (list.getLsbD 7) (pullPC p) <|
  doIf (list.getLsbD 6) (pullOther p) <|
  doIf (list.getLsbD 5) (pullY p) <|
  doIf (list.getLsbD 4) (pullX p) <|
  doIf (list.getLsbD 3) (pullDP p) <|
  doIf (list.getLsbD 2) (pullB p) <|
  doIf (list.getLsbD 1) (pullA p) <|
  doIf (list.getLsbD 0) (pullCC p) st

end Sys2Proof.Machine
end

