-- ==== Sys2Proof/Machine/Stores.lean ====
section
/-! DEFINITION. The bytes an instruction or an interrupt entry stores to, in the order of the stores (20_memory R44, R46, R49, R54),
and the memory of one that a RESET abandons in the middle (70_reset_and_hazards R331). -/

namespace Sys2Proof.Machine

/-- The n addresses below a stack pointer, downward: the order of pushes (R46). -/
def below (sp : Word) (n : Nat) : List Word := (List.range n).map fun k => sp - BitVec.ofNat 16 (k + 1)

/-- The byte a memory operand stores to. -/
def storesByte (m : MemOperand) (st : State) : List Word := [(effectiveAddress m st).1]

/-- The two bytes a 16-bit store writes, the high one first (R44). -/
def storesWord (m : MemOperand) (st : State) : List Word :=
  [(effectiveAddress m st).1, (effectiveAddress m st).1 + 1]

/-- The bytes an instruction stores to, first store first, in a state whose PC is past it: the operand's effective address, computed
as the meaning computes it (after the draw of H where H is undefined), or the bytes below the stack pointer. -/
def storesTo (i : Instr) (s : State) : List Word :=
  match i with
  | .sta m | .stb m | .clr m | .com m | .dec m | .inc m | .lsr m | .rol m | .ror m => storesByte m s
  | .asl m | .lsl m | .asr m | .neg m => storesByte m (nextDraw s)
  | .std m | .sts m | .stu m | .stx m | .sty m => storesWord m s
  | .pshs list => below s.s (listBytes list)
  | .pshu list => below s.u (listBytes list)
  | .jsr m => below (effectiveAddress m s).2.s 2
  | .bsr _ | .lbsr _ => below s.s 2
  | .swi | .swi2 | .swi3 | .cwai _ => below s.s 12
  | _ => []

/-- The bytes an interrupt entry stores to: none out of CWAI, 3 for a FIRQ, else 12 (R276, R282). -/
def entryStores (k : Interrupt) (st : State) : List Word :=
  match st.wait with
  | .cwai => []
  | _ => match k with
    | .firq => below st.s 3
    | _ => below st.s 12

/-- The memory with the given bytes as another memory holds them. -/
def copyCells (after : Memory) : List Word → Memory → Memory
  | [], m => m
  | a :: rest, m => copyCells after rest (match after.get a.toNat with | some v => m.put a.toNat v | none => m)

/-- RESET in the middle of something: the first stores are done and no other, then the reset entry (R331). No address is stored to
twice in one instruction, so the bytes of the stores that are done are those of the completed one. -/
def abandonedAfter (k : Nat) (stores : List Word) (before after : State) : State :=
  resetEntry { after with mem := copyCells after.mem (stores.take k) before.mem }

end Sys2Proof.Machine
end

