-- ==== Sys2Proof/Machine/Boundary.lean ====
section
/-! DEFINITION. What happens at an instruction boundary before an instruction's own effect: the inputs are taken, an interrupt is
accepted, a wait goes on, or an instruction is fetched (60_exceptions R272, R273, R285, R286; 70_reset_and_hazards R331). -/

namespace Sys2Proof.Machine

/-! ## The inputs -/

/-- The three input lines take their levels; an NMI edge is latched if NMI is armed and dropped if it is not (R272, R273, D16,
log 10). -/
def latchLines (inp : BoundaryInput) (st : State) : State :=
  { st with
    nmiPending := st.nmiPending || (st.nmiArmed && inp.nmi && !st.nmiLine)
    nmiLine := inp.nmi
    firqLine := inp.firq
    irqLine := inp.irq }

/-- A boundary takes its input: first what the outside did to the devices, then the levels of the lines (log 8). What
the devices do within an instruction is `letDevicesMove`. -/
def takeInput (inp : BoundaryInput) (rest : List BoundaryInput) (st : State) : State :=
  latchLines inp (applyEvents inp.events { st with inputs := rest })

/-- The interrupt a boundary accepts (R272, R275): a pending NMI, else FIRQ unless masked, else IRQ unless masked. -/
def acceptedInterrupt (st : State) : Option Interrupt :=
  if st.nmiPending && st.nmiArmed then some .nmi
  else if st.firqLine && !st.cc.f then some .firq
  else if st.irqLine && !st.cc.i then some .irq
  else none

/-- Whether an input that ends a SYNC is active, masked or not (R286). -/
def syncEnds (st : State) : Bool := (st.nmiPending && st.nmiArmed) || st.firqLine || st.irqLine

/-! ## The fetch -/

/-- Reads instruction bytes at PC one by one, each advancing PC, until they make an instruction or are rejected (00_scope R12,
10_state R27, 30_encoding R62). The first argument bounds how many bytes are still read. -/
def fetchMore : Nat → List Byte → State → Decoded Instr × State
  | 0, bytes, st => (decode bytes, st)
  | n + 1, bytes, st =>
    match decode bytes with
    | .needMore =>
      let b := readByte st.pc st
      fetchMore n (bytes ++ [b.1]) { b.2 with pc := b.2.pc + 1 }
    | r => (r, st)

/-- The instruction at PC; none is longer than 5 bytes (30_encoding R60). -/
def fetch (st : State) : Decoded Instr × State := fetchMore 5 [] st

/-- The refusal of a rejected encoding (R80, R82, R87). -/
def refusalOf : DecodeError → Refusal
  | .illegalOpcode => .illegalOpcode
  | .illegalPostbyte => .illegalPostbyte
  | .undefinedTransferOperand => .undefinedTransferOperand

/-! ## The boundary -/

/-- What a boundary leads to. -/
inductive Action where
  /-- The step ends in this state. -/
  | become (st : State)
  /-- The step carries out an instruction, PC being past it. -/
  | run (i : Instr) (st : State)
  /-- The bytes at PC have no meaning. -/
  | refuse (r : Refusal)
  deriving DecidableEq, Repr

/-- Fetches and hands over the instruction at PC. The bytes of five are never too few (`decode_five_bytes` of Laws/Fetch.lean),
so the second arm is never taken. -/
def fetchAction (st : State) : Action :=
  match fetch st with
  | (.ok i _, after) => .run i after
  | (.needMore, _) => .refuse .illegalOpcode
  | (.bad e, _) => .refuse (refusalOf e)

/-- The boundary rule (R272): accept an interrupt, else go on waiting (R285, R286, D28), else run the instruction at PC. A SYNC
that an input ends without an entry is over in a step of its own (log 9). -/
def boundaryAction (st : State) : Action :=
  match acceptedInterrupt st with
  | some k => .become (raiseInterrupt k st)
  | none =>
    match st.wait with
    | .none => fetchAction st
    | .sync => .become (if syncEnds st then { st with wait := .none } else st)
    | .cwai => .become st

/-- One boundary with its input; RESET overrides everything (R275, R331). With no input left the lines keep their levels. -/
def nextAction (st : State) : Action :=
  match st.inputs with
  | [] => boundaryAction st
  | inp :: rest =>
    let st := takeInput inp rest st
    if inp.reset then .become (resetEntry st) else boundaryAction st

/-! ## RESET in the middle -/

/-- What a boundary, its input taken, is about to store to: the frame of an interrupt entry, or the stores of an instruction. -/
def boundaryStores (st : State) : List Word :=
  match acceptedInterrupt st with
  | some k => entryStores k st
  | none =>
    match boundaryAction st with
    | .run i t => storesTo i t
    | .become _ => []
    | .refuse _ => []

/-- The end of a step. Where RESET arrived in the middle of what the boundary started, that is abandoned: "it can occur at any time,
abandons the instruction in progress" (R331). Bytes without a meaning stay refused (D27). -/
def finishStep (before after : State) : State :=
  match before.inputs with
  | [] => after
  | inp :: rest =>
    match inp.reset, inp.resetDuring with
    | false, some k =>
      let started := takeInput inp rest before
      abandonedAfter k (boundaryStores started) started after
    | _, _ => after

/-! ## Loading a program from outside -/

/-- Where a user program starts (70_reset_and_hazards R333). -/
def userStart : Word := 0x0400

/-- The memory with bytes stored at rising addresses. -/
def loadBytes : Nat → List Byte → Memory → Memory
  | _, [], m => m
  | a, b :: bs, m => loadBytes (a + 1) bs (m.put a b)

/-- MEM_MAP with the five bytes at the user program's start made RAM, if they are not RAM already. -/
def userRam (m : List MapEntry) : List MapEntry :=
  if (List.range 5).all fun k => regionIn m (userStart.toNat + k) == .ram then m
  else { first := userStart.toNat, last := userStart.toNat + 4, kind := .ram } :: m

/-- A state in which the next boundary fetches the given bytes at the user program's start: PC there, the bytes in RAM, no input,
no wait and nothing pending. Log 12. -/
def loadAtUserStart (bytes : List Byte) (st : State) : State :=
  { st with
    pc := userStart
    mem := loadBytes userStart.toNat bytes st.mem
    memMap := userRam st.memMap
    inputs := []
    wait := .none
    nmiPending := false
    firqLine := false
    irqLine := false }

end Sys2Proof.Machine
end

