-- ==== Sys2Proof/Machine/Arithmetic16.lean ====
section
/-! DEFINITION. The 16-bit arithmetic instructions: ADDD, SUBD, the 16-bit compares, ABX, MUL, SEX (files 40 and 41). -/

namespace Sys2Proof.Machine

/-- ADDD (R110). -/
def execAddd (src : Src16) (st : State) : Result := .next (wordOperand .d add16 src st)

/-- SUBD (R202). -/
def execSubd (src : Src16) (st : State) : Result := .next (wordOperand .d sub16 src st)

/-- CMPD (R127). -/
def execCmpd (src : Src16) (st : State) : Result := .next (compareWord .d src st)

/-- CMPS (R128). -/
def execCmps (src : Src16) (st : State) : Result := .next (compareWord .s src st)

/-- CMPU (R129). -/
def execCmpu (src : Src16) (st : State) : Result := .next (compareWord .u src st)

/-- CMPX (R130). -/
def execCmpx (src : Src16) (st : State) : Result := .next (compareWord .x src st)

/-- CMPY (R131). -/
def execCmpy (src : Src16) (st : State) : Result := .next (compareWord .y src st)

/-- ABX: B is unsigned, no flag changes (R105). -/
def execAbx (st : State) : Result := .next ({ st with x := st.x + zext8 st.b })

/-- MUL (R170). -/
def execMul (st : State) : Result := .next (let p := mul8 st.a st.b st.cc; setD p.1 { st with cc := p.2 })

/-- SEX (R192). -/
def execSex (st : State) : Result := .next (let p := sex8 st.b st.cc; { st with a := p.1, cc := p.2 })

end Sys2Proof.Machine
end

