-- ==== Sys2Proof/Machine/Arithmetic8.lean ====
section
/-! DEFINITION. The 8-bit arithmetic instructions: ADC, ADD, SBC, SUB, CMP, NEG, INC, DEC, DAA, CLR, TST (files 40 and 41). -/

namespace Sys2Proof.Machine

/-- ADCA (R106). -/
def execAdca (src : Src8) (st : State) : Result := .next (accOperand .a (fun a m cc => add8 a m cc.c cc) src st)

/-- ADCB (R107). -/
def execAdcb (src : Src8) (st : State) : Result := .next (accOperand .b (fun a m cc => add8 a m cc.c cc) src st)

/-- ADDA (R108). -/
def execAdda (src : Src8) (st : State) : Result := .next (accOperand .a (fun a m cc => add8 a m false cc) src st)

/-- ADDB (R109). -/
def execAddb (src : Src8) (st : State) : Result := .next (accOperand .b (fun a m cc => add8 a m false cc) src st)

/-- SBCA (R190); H is undefined (R102). -/
def execSbca (src : Src8) (st : State) : Result :=
  .next (withFreeH (fun h => accOperand .a (fun a m cc => sub8 h a m cc.c cc) src) st)

/-- SBCB (R191); H is undefined (R102). -/
def execSbcb (src : Src8) (st : State) : Result :=
  .next (withFreeH (fun h => accOperand .b (fun a m cc => sub8 h a m cc.c cc) src) st)

/-- SUBA (R200); H is undefined (R102). -/
def execSuba (src : Src8) (st : State) : Result :=
  .next (withFreeH (fun h => accOperand .a (fun a m cc => sub8 h a m false cc) src) st)

/-- SUBB (R201); H is undefined (R102). -/
def execSubb (src : Src8) (st : State) : Result :=
  .next (withFreeH (fun h => accOperand .b (fun a m cc => sub8 h a m false cc) src) st)

/-- CMPA (R125); H is undefined (R102). -/
def execCmpa (src : Src8) (st : State) : Result :=
  .next (withFreeH (fun h => testOperand .a (fun a m cc => sub8 h a m false cc) src) st)

/-- CMPB (R126); H is undefined (R102). -/
def execCmpb (src : Src8) (st : State) : Result :=
  .next (withFreeH (fun h => testOperand .b (fun a m cc => sub8 h a m false cc) src) st)

/-- NEGA (R171); H is undefined. -/
def execNega (st : State) : Result := .next (withFreeH (fun h => accUnary .a (neg8 h)) st)

/-- NEGB (R172); H is undefined. -/
def execNegb (st : State) : Result := .next (withFreeH (fun h => accUnary .b (neg8 h)) st)

/-- NEG (R173); H is undefined. -/
def execNeg (m : MemOperand) (st : State) : Result := .next (withFreeH (fun h => memUnary (neg8 h) m) st)

/-- INCA (R143). -/
def execInca (st : State) : Result := .next (accUnary .a inc8 st)

/-- INCB (R144). -/
def execIncb (st : State) : Result := .next (accUnary .b inc8 st)

/-- INC (R145). -/
def execInc (m : MemOperand) (st : State) : Result := .next (memUnary inc8 m st)

/-- DECA (R137). -/
def execDeca (st : State) : Result := .next (accUnary .a dec8 st)

/-- DECB (R138). -/
def execDecb (st : State) : Result := .next (accUnary .b dec8 st)

/-- DEC (R139). -/
def execDec (m : MemOperand) (st : State) : Result := .next (memUnary dec8 m st)

/-- DAA (R136). -/
def execDaa (st : State) : Result := .next (accUnary .a daa8 st)

/-- CLRA (R122). -/
def execClra (st : State) : Result := .next (accUnary .a (fun _ => clr8) st)

/-- CLRB (R123). -/
def execClrb (st : State) : Result := .next (accUnary .b (fun _ => clr8) st)

/-- CLR: the byte is read and the value discarded before the write (R124, R337, D17). -/
def execClr (m : MemOperand) (st : State) : Result := .next (memUnary (fun _ => clr8) m st)

/-- TSTA (R208). -/
def execTsta (st : State) : Result := .next ({ st with cc := setNZ8V0 st.a st.cc })

/-- TSTB (R209). -/
def execTstb (st : State) : Result := .next ({ st with cc := setNZ8V0 st.b st.cc })

/-- TST: one read, no write (R210, R337). -/
def execTst (m : MemOperand) (st : State) : Result :=
  .next (let v := operand8 (.mem m) st; { v.2 with cc := setNZ8V0 v.1 v.2.cc })

end Sys2Proof.Machine
end

