-- ==== Sys2Proof/Machine/Branch.lean ====
section
/-! DEFINITION. The branches, short and long, with the second mnemonics BHS, BLO, LBHS, LBLO (42_branches R220 to R260). -/

namespace Sys2Proof.Machine

/-- BCC (R223). -/
def execBcc (off : Byte) (st : State) : Result := .next (branchIf .cc (sext8 off) st)

/-- LBCC (R224). -/
def execLbcc (off : Word) (st : State) : Result := .next (branchIf .cc off st)

/-- BCS (R225). -/
def execBcs (off : Byte) (st : State) : Result := .next (branchIf .cs (sext8 off) st)

/-- LBCS (R226). -/
def execLbcs (off : Word) (st : State) : Result := .next (branchIf .cs off st)

/-- BEQ (R227). -/
def execBeq (off : Byte) (st : State) : Result := .next (branchIf .eq (sext8 off) st)

/-- LBEQ (R228). -/
def execLbeq (off : Word) (st : State) : Result := .next (branchIf .eq off st)

/-- BGE (R229). -/
def execBge (off : Byte) (st : State) : Result := .next (branchIf .ge (sext8 off) st)

/-- LBGE (R230). -/
def execLbge (off : Word) (st : State) : Result := .next (branchIf .ge off st)

/-- BGT (R231). -/
def execBgt (off : Byte) (st : State) : Result := .next (branchIf .gt (sext8 off) st)

/-- LBGT (R232). -/
def execLbgt (off : Word) (st : State) : Result := .next (branchIf .gt off st)

/-- BHI (R233). -/
def execBhi (off : Byte) (st : State) : Result := .next (branchIf .hi (sext8 off) st)

/-- LBHI (R234). -/
def execLbhi (off : Word) (st : State) : Result := .next (branchIf .hi off st)

/-- BHS, the same instruction as BCC (R235). -/
def execBhs (off : Byte) (st : State) : Result := .next (branchIf .cc (sext8 off) st)

/-- LBHS, the same instruction as LBCC (R236). -/
def execLbhs (off : Word) (st : State) : Result := .next (branchIf .cc off st)

/-- BLE (R237). -/
def execBle (off : Byte) (st : State) : Result := .next (branchIf .le (sext8 off) st)

/-- LBLE (R238). -/
def execLble (off : Word) (st : State) : Result := .next (branchIf .le off st)

/-- BLO, the same instruction as BCS (R239). -/
def execBlo (off : Byte) (st : State) : Result := .next (branchIf .cs (sext8 off) st)

/-- LBLO, the same instruction as LBCS (R240). -/
def execLblo (off : Word) (st : State) : Result := .next (branchIf .cs off st)

/-- BLS (R241). -/
def execBls (off : Byte) (st : State) : Result := .next (branchIf .ls (sext8 off) st)

/-- LBLS (R242). -/
def execLbls (off : Word) (st : State) : Result := .next (branchIf .ls off st)

/-- BLT (R243). -/
def execBlt (off : Byte) (st : State) : Result := .next (branchIf .lt (sext8 off) st)

/-- LBLT (R244). -/
def execLblt (off : Word) (st : State) : Result := .next (branchIf .lt off st)

/-- BMI (R245). -/
def execBmi (off : Byte) (st : State) : Result := .next (branchIf .mi (sext8 off) st)

/-- LBMI (R246). -/
def execLbmi (off : Word) (st : State) : Result := .next (branchIf .mi off st)

/-- BNE (R247). -/
def execBne (off : Byte) (st : State) : Result := .next (branchIf .ne (sext8 off) st)

/-- LBNE (R248). -/
def execLbne (off : Word) (st : State) : Result := .next (branchIf .ne off st)

/-- BPL (R249). -/
def execBpl (off : Byte) (st : State) : Result := .next (branchIf .pl (sext8 off) st)

/-- LBPL (R250). -/
def execLbpl (off : Word) (st : State) : Result := .next (branchIf .pl off st)

/-- BRA (R251). -/
def execBra (off : Byte) (st : State) : Result := .next (branchIf .always (sext8 off) st)

/-- LBRA (R252). -/
def execLbra (off : Word) (st : State) : Result := .next (branchIf .always off st)

/-- BRN (R253). -/
def execBrn (off : Byte) (st : State) : Result := .next (branchIf .never (sext8 off) st)

/-- LBRN (R254). -/
def execLbrn (off : Word) (st : State) : Result := .next (branchIf .never off st)

/-- BVC (R257). -/
def execBvc (off : Byte) (st : State) : Result := .next (branchIf .vc (sext8 off) st)

/-- LBVC (R258). -/
def execLbvc (off : Word) (st : State) : Result := .next (branchIf .vc off st)

/-- BVS (R259). -/
def execBvs (off : Byte) (st : State) : Result := .next (branchIf .vs (sext8 off) st)

/-- LBVS (R260). -/
def execLbvs (off : Word) (st : State) : Result := .next (branchIf .vs off st)

/-- BSR (R255). -/
def execBsr (off : Byte) (st : State) : Result := .next (callTo (st.pc + sext8 off) st)

/-- LBSR (R256). -/
def execLbsr (off : Word) (st : State) : Result := .next (callTo (st.pc + off) st)

end Sys2Proof.Machine
end

