-- ==== Sys2Proof/Machine/Interrupts.lean ====
section
/-! DEFINITION. The interrupt instructions: SWI, SWI2, SWI3, RTI, CWAI, SYNC (files 40 and 41). An instruction runs only while
the machine does not wait (R32), so the software interrupts stack whatever `wait` holds. -/

namespace Sys2Proof.Machine

/-- SWI (R203). -/
def execSwi (st : State) : Result := .next (raiseInterrupt .swi { st with wait := .none })

/-- SWI2 (R204). -/
def execSwi2 (st : State) : Result := .next (raiseInterrupt .swi2 { st with wait := .none })

/-- SWI3 (R205). -/
def execSwi3 (st : State) : Result := .next (raiseInterrupt .swi3 { st with wait := .none })

/-- RTI (R188). -/
def execRti (st : State) : Result := .next (returnFromInterrupt st)

/-- CWAI: and the mask into CC, set E, stack the entire frame, wait (R135). -/
def execCwai (mask : Byte) (st : State) : Result :=
  .next (let p := pushEntireFrame (setE true { st with cc := andCC mask st.cc }); { p with wait := .cwai })

/-- SYNC: wait; nothing is stacked (R206). -/
def execSync (st : State) : Result := .next ({ st with wait := .sync })

end Sys2Proof.Machine
end

