-- ==== Sys2Proof/Machine/LoadStore.lean ====
section
/-! DEFINITION. Loads, stores and LEA (files 40 and 41). -/

namespace Sys2Proof.Machine

/-- LDA (R148). -/
def execLda (src : Src8) (st : State) : Result := .next (loadAcc .a src st)

/-- LDB (R149). -/
def execLdb (src : Src8) (st : State) : Result := .next (loadAcc .b src st)

/-- LDD (R150). -/
def execLdd (src : Src16) (st : State) : Result := .next (loadWord .d src st)

/-- LDS (R151). It arms NMI (R273). -/
def execLds (src : Src16) (st : State) : Result := .next (loadWord .s src st)

/-- LDU (R152). -/
def execLdu (src : Src16) (st : State) : Result := .next (loadWord .u src st)

/-- LDX (R153). -/
def execLdx (src : Src16) (st : State) : Result := .next (loadWord .x src st)

/-- LDY (R154). -/
def execLdy (src : Src16) (st : State) : Result := .next (loadWord .y src st)

/-- STA (R193). -/
def execSta (m : MemOperand) (st : State) : Result := .next (storeAcc .a m st)

/-- STB (R194). -/
def execStb (m : MemOperand) (st : State) : Result := .next (storeAcc .b m st)

/-- STD (R195). -/
def execStd (m : MemOperand) (st : State) : Result := .next (storeWord .d m st)

/-- STS (R196). -/
def execSts (m : MemOperand) (st : State) : Result := .next (storeWord .s m st)

/-- STU (R197). -/
def execStu (m : MemOperand) (st : State) : Result := .next (storeWord .u m st)

/-- STX (R198). -/
def execStx (m : MemOperand) (st : State) : Result := .next (storeWord .x m st)

/-- STY (R199). -/
def execSty (m : MemOperand) (st : State) : Result := .next (storeWord .y m st)

/-- LEAS: no flag changes; it arms NMI (R160, R273). -/
def execLeas (m : Indexed) (st : State) : Result := .next (let ea := indexedAddress m st; loadS ea.1 ea.2)

/-- LEAU: no flag changes (R161). -/
def execLeau (m : Indexed) (st : State) : Result := .next (let ea := indexedAddress m st; { ea.2 with u := ea.1 })

/-- LEAX: Z from the address; the register is written last (R162, D15). -/
def execLeax (m : Indexed) (st : State) : Result :=
  .next (let ea := indexedAddress m st; { ea.2 with x := ea.1, cc := { ea.2.cc with z := ea.1 == 0 } })

/-- LEAY: Z from the address; the register is written last (R163, D15). -/
def execLeay (m : Indexed) (st : State) : Result :=
  .next (let ea := indexedAddress m st; { ea.2 with y := ea.1, cc := { ea.2.cc with z := ea.1 == 0 } })

end Sys2Proof.Machine
end

