-- ==== Sys2Proof/Machine/Logic.lean ====
section
/-! DEFINITION. The logical instructions: AND, BIT, COM, EOR, OR, ANDCC, ORCC (files 40 and 41). -/

namespace Sys2Proof.Machine

/-- ANDA (R111). -/
def execAnda (src : Src8) (st : State) : Result := .next (accOperand .a (fun a m => logic8 (a &&& m)) src st)

/-- ANDB (R112). -/
def execAndb (src : Src8) (st : State) : Result := .next (accOperand .b (fun a m => logic8 (a &&& m)) src st)

/-- EORA (R140). -/
def execEora (src : Src8) (st : State) : Result := .next (accOperand .a (fun a m => logic8 (a ^^^ m)) src st)

/-- EORB (R141). -/
def execEorb (src : Src8) (st : State) : Result := .next (accOperand .b (fun a m => logic8 (a ^^^ m)) src st)

/-- ORA (R175). -/
def execOra (src : Src8) (st : State) : Result := .next (accOperand .a (fun a m => logic8 (a ||| m)) src st)

/-- ORB (R176). -/
def execOrb (src : Src8) (st : State) : Result := .next (accOperand .b (fun a m => logic8 (a ||| m)) src st)

/-- BITA: the result is not stored (R120). -/
def execBita (src : Src8) (st : State) : Result := .next (testOperand .a (fun a m => logic8 (a &&& m)) src st)

/-- BITB: the result is not stored (R121). -/
def execBitb (src : Src8) (st : State) : Result := .next (testOperand .b (fun a m => logic8 (a &&& m)) src st)

/-- COMA (R132). -/
def execComa (st : State) : Result := .next (accUnary .a com8 st)

/-- COMB (R133). -/
def execComb (st : State) : Result := .next (accUnary .b com8 st)

/-- COM (R134). -/
def execCom (m : MemOperand) (st : State) : Result := .next (memUnary com8 m st)

/-- ANDCC (R113). -/
def execAndcc (mask : Byte) (st : State) : Result := .next ({ st with cc := andCC mask st.cc })

/-- ORCC (R177). -/
def execOrcc (mask : Byte) (st : State) : Result := .next ({ st with cc := orCC mask st.cc })

end Sys2Proof.Machine
end

