-- ==== Sys2Proof/Machine/Shift.lean ====
section
/-! DEFINITION. The shifts and rotates, and LSL, the second mnemonic of ASL (files 40 and 41). -/

namespace Sys2Proof.Machine

/-- ASLA (R114); H is undefined. -/
def execAsla (st : State) : Result := .next (withFreeH (fun h => accUnary .a (asl8 h)) st)

/-- ASLB (R115); H is undefined. -/
def execAslb (st : State) : Result := .next (withFreeH (fun h => accUnary .b (asl8 h)) st)

/-- ASL (R116); H is undefined. -/
def execAsl (m : MemOperand) (st : State) : Result := .next (withFreeH (fun h => memUnary (asl8 h) m) st)

/-- LSLA, the same instruction as ASLA (R164); H is undefined. -/
def execLsla (st : State) : Result := .next (withFreeH (fun h => accUnary .a (asl8 h)) st)

/-- LSLB, the same instruction as ASLB (R165); H is undefined. -/
def execLslb (st : State) : Result := .next (withFreeH (fun h => accUnary .b (asl8 h)) st)

/-- LSL, the same instruction as ASL (R166); H is undefined. -/
def execLsl (m : MemOperand) (st : State) : Result := .next (withFreeH (fun h => memUnary (asl8 h) m) st)

/-- ASRA (R117); H is undefined. -/
def execAsra (st : State) : Result := .next (withFreeH (fun h => accUnary .a (asr8 h)) st)

/-- ASRB (R118); H is undefined. -/
def execAsrb (st : State) : Result := .next (withFreeH (fun h => accUnary .b (asr8 h)) st)

/-- ASR (R119); H is undefined. -/
def execAsr (m : MemOperand) (st : State) : Result := .next (withFreeH (fun h => memUnary (asr8 h) m) st)

/-- LSRA (R167). -/
def execLsra (st : State) : Result := .next (accUnary .a lsr8 st)

/-- LSRB (R168). -/
def execLsrb (st : State) : Result := .next (accUnary .b lsr8 st)

/-- LSR (R169). -/
def execLsr (m : MemOperand) (st : State) : Result := .next (memUnary lsr8 m st)

/-- ROLA (R182). -/
def execRola (st : State) : Result := .next (accUnary .a rol8 st)

/-- ROLB (R183). -/
def execRolb (st : State) : Result := .next (accUnary .b rol8 st)

/-- ROL (R184). -/
def execRol (m : MemOperand) (st : State) : Result := .next (memUnary rol8 m st)

/-- RORA (R185). -/
def execRora (st : State) : Result := .next (accUnary .a ror8 st)

/-- RORB (R186). -/
def execRorb (st : State) : Result := .next (accUnary .b ror8 st)

/-- ROR (R187). -/
def execRor (m : MemOperand) (st : State) : Result := .next (memUnary ror8 m st)

end Sys2Proof.Machine
end

