-- ==== Sys2Proof/Machine/Stack.lean ====
section
/-! DEFINITION. The stacks and the jumps: PSH, PUL, JMP, JSR, RTS, NOP (files 40 and 41). -/

namespace Sys2Proof.Machine

/-- PSHS (R178). -/
def execPshs (list : Byte) (st : State) : Result := .next (pushList .s list st)

/-- PSHU (R179). -/
def execPshu (list : Byte) (st : State) : Result := .next (pushList .u list st)

/-- PULS (R180). -/
def execPuls (list : Byte) (st : State) : Result := .next (pullList .s list st)

/-- PULU (R181). -/
def execPulu (list : Byte) (st : State) : Result := .next (pullList .u list st)

/-- JMP: to the address itself (R146). -/
def execJmp (m : MemOperand) (st : State) : Result :=
  .next (let ea := effectiveAddress m st; { ea.2 with pc := ea.1 })

/-- JSR: the address is computed before the push (R147). -/
def execJsr (m : MemOperand) (st : State) : Result := .next (let ea := effectiveAddress m st; callTo ea.1 ea.2)

/-- RTS (R189). -/
def execRts (st : State) : Result := .next (pullPC .s st)

/-- NOP (R174). -/
def execNop (st : State) : Result := .next (st)

end Sys2Proof.Machine
end

