-- ==== Sys2Proof/Machine/Transfer.lean ====
section
/-! DEFINITION. TFR and EXG (files 40 and 41). -/

namespace Sys2Proof.Machine

/-- TFR: R2 takes R1; registers of different width are refused (R207, R82). -/
def execTfr (r1 r2 : Reg) (st : State) : Result :=
  if regWide r1 == regWide r2 then .next (setReg r2 (getReg r1 st) st) else .refused .undefinedTransferOperand

/-- EXG: both registers are read, then both are written; registers of different width are refused (R142, R82). `EXG S,S` writes S
and so arms NMI, as corner case (5) and R273 say, where corner case (4) says that `EXG r,r` changes nothing: DESIGN CHOICE, unsafe
(log 34). -/
def execExg (r1 r2 : Reg) (st : State) : Result :=
  if regWide r1 == regWide r2 then .next (setReg r2 (getReg r1 st) (setReg r1 (getReg r2 st) st))
  else .refused .undefinedTransferOperand

end Sys2Proof.Machine
end

