-- ==== Sys2Proof/Machine/Step.lean ====
section
/-! DEFINITION. One step of the machine: one instruction boundary and, unless an interrupt, a wait or RESET takes it, the
instruction at PC (60_exceptions R272, R283). -/

namespace Sys2Proof.Machine

/-- One boundary and what it starts, carried to its end. -/
def carryOut (st : State) : Host.Outcome State Fault Refusal :=
  match nextAction st with
  | .become t => .next t
  | .run i t => exec i t
  | .refuse r => .refused r

/-- One step: what the boundary starts, unless RESET abandons it in the middle (R331). -/
def step (st : State) : Host.Outcome State Fault Refusal :=
  match carryOut st with
  | .next t => .next (finishStep st t)
  | .fault f => .fault f
  | .refused r => .refused r

/-- The state with a table row's instruction stored where the next step fetches (log 12, log 15). -/
def State.withFetchWord (s : State) (nbits w : Nat) : State := loadAtUserStart (tableBytes nbits w) s

end Sys2Proof.Machine
end

