-- ==== Sys2Proof/Machine/Timing.lean ====
section
/-! DEFINITION. The cycle counts of 70_reset_and_hazards R339 to R341 and 30_encoding R81. No meaning uses them (R342); they are
counted in periods of E, whose length the spec leaves open (00_scope R7, log 27). -/

namespace Sys2Proof.Machine

/-- What an indirect form adds to its direct form (R340). -/
def indirectCycles (ind : Bool) : Nat := if ind then 3 else 0

/-- The column `~` of R81: the cycles an indexed form adds. -/
def indexedCycles : Indexed → Nat
  | .off5 _ _ => 1
  | .noOff _ ind => indirectCycles ind
  | .off8 _ _ ind => 1 + indirectCycles ind
  | .off16 _ _ ind => 4 + indirectCycles ind
  | .accA _ ind => 1 + indirectCycles ind
  | .accB _ ind => 1 + indirectCycles ind
  | .accD _ ind => 4 + indirectCycles ind
  | .inc1 _ => 2
  | .inc2 _ ind => 3 + indirectCycles ind
  | .dec1 _ => 2
  | .dec2 _ ind => 3 + indirectCycles ind
  | .pcr8 _ ind => 1 + indirectCycles ind
  | .pcr16 _ ind => 5 + indirectCycles ind
  | .extInd _ => 5

/-- A memory form: the base count of the direct form, one more when extended, the additions when indexed (R339, R340). -/
def memCycles (base : Nat) : MemOperand → Nat
  | .direct _ => base
  | .extended _ => base + 1
  | .indexed m => base + indexedCycles m

/-- An 8-bit source operand: the counts of the immediate and of the direct form. -/
def src8Cycles (imm base : Nat) : Src8 → Nat
  | .imm _ => imm
  | .mem m => memCycles base m

/-- A 16-bit source operand: the counts of the immediate and of the direct form. -/
def src16Cycles (imm base : Nat) : Src16 → Nat
  | .imm _ => imm
  | .mem m => memCycles base m

/-- A long conditional branch: 5 if not taken, 6 if taken (R341). -/
def longBranchCycles (c : Cond) (st : State) : Nat := if holds c st.cc then 6 else 5

/-- The cycles of an instruction in a state whose PC is already past it; for CWAI and SYNC without the time waited (R339 to
R341). -/
def cycles (i : Instr) (st : State) : Nat :=
  match i with
  | .abx => 3
  | .adca src => src8Cycles 2 4 src
  | .adcb src => src8Cycles 2 4 src
  | .adda src => src8Cycles 2 4 src
  | .addb src => src8Cycles 2 4 src
  | .addd src => src16Cycles 4 6 src
  | .anda src => src8Cycles 2 4 src
  | .andb src => src8Cycles 2 4 src
  | .andcc _ => 3
  | .asla => 2
  | .aslb => 2
  | .asl m => memCycles 6 m
  | .asra => 2
  | .asrb => 2
  | .asr m => memCycles 6 m
  | .bita src => src8Cycles 2 4 src
  | .bitb src => src8Cycles 2 4 src
  | .clra => 2
  | .clrb => 2
  | .clr m => memCycles 6 m
  | .cmpa src => src8Cycles 2 4 src
  | .cmpb src => src8Cycles 2 4 src
  | .cmpd src => src16Cycles 5 7 src
  | .cmps src => src16Cycles 5 7 src
  | .cmpu src => src16Cycles 5 7 src
  | .cmpx src => src16Cycles 4 6 src
  | .cmpy src => src16Cycles 5 7 src
  | .coma => 2
  | .comb => 2
  | .com m => memCycles 6 m
  | .cwai _ => 20
  | .daa => 2
  | .deca => 2
  | .decb => 2
  | .dec m => memCycles 6 m
  | .eora src => src8Cycles 2 4 src
  | .eorb src => src8Cycles 2 4 src
  | .exg _ _ => 8
  | .inca => 2
  | .incb => 2
  | .inc m => memCycles 6 m
  | .jmp m => memCycles 3 m
  | .jsr m => memCycles 7 m
  | .lda src => src8Cycles 2 4 src
  | .ldb src => src8Cycles 2 4 src
  | .ldd src => src16Cycles 3 5 src
  | .lds src => src16Cycles 4 6 src
  | .ldu src => src16Cycles 3 5 src
  | .ldx src => src16Cycles 3 5 src
  | .ldy src => src16Cycles 4 6 src
  | .leas m => 4 + indexedCycles m
  | .leau m => 4 + indexedCycles m
  | .leax m => 4 + indexedCycles m
  | .leay m => 4 + indexedCycles m
  | .lsla => 2
  | .lslb => 2
  | .lsl m => memCycles 6 m
  | .lsra => 2
  | .lsrb => 2
  | .lsr m => memCycles 6 m
  | .mul => 11
  | .nega => 2
  | .negb => 2
  | .neg m => memCycles 6 m
  | .nop => 2
  | .ora src => src8Cycles 2 4 src
  | .orb src => src8Cycles 2 4 src
  | .orcc _ => 3
  | .pshs list => 5 + listBytes list
  | .pshu list => 5 + listBytes list
  | .puls list => 5 + listBytes list
  | .pulu list => 5 + listBytes list
  | .rola => 2
  | .rolb => 2
  | .rol m => memCycles 6 m
  | .rora => 2
  | .rorb => 2
  | .ror m => memCycles 6 m
  | .rti => if (readByte st.s st).1.getLsbD 7 then 15 else 6
  | .rts => 5
  | .sbca src => src8Cycles 2 4 src
  | .sbcb src => src8Cycles 2 4 src
  | .sex => 2
  | .sta m => memCycles 4 m
  | .stb m => memCycles 4 m
  | .std m => memCycles 5 m
  | .sts m => memCycles 6 m
  | .stu m => memCycles 5 m
  | .stx m => memCycles 5 m
  | .sty m => memCycles 6 m
  | .suba src => src8Cycles 2 4 src
  | .subb src => src8Cycles 2 4 src
  | .subd src => src16Cycles 4 6 src
  | .swi => 19
  | .swi2 => 20
  | .swi3 => 20
  | .sync => 4
  | .tfr _ _ => 6
  | .tsta => 2
  | .tstb => 2
  | .tst m => memCycles 6 m
  | .bcc _ => 3
  | .bcs _ => 3
  | .beq _ => 3
  | .bge _ => 3
  | .bgt _ => 3
  | .bhi _ => 3
  | .bhs _ => 3
  | .ble _ => 3
  | .blo _ => 3
  | .bls _ => 3
  | .blt _ => 3
  | .bmi _ => 3
  | .bne _ => 3
  | .bpl _ => 3
  | .bra _ => 3
  | .brn _ => 3
  | .bsr _ => 7
  | .bvc _ => 3
  | .bvs _ => 3
  | .lbcc _ => longBranchCycles .cc st
  | .lbcs _ => longBranchCycles .cs st
  | .lbeq _ => longBranchCycles .eq st
  | .lbge _ => longBranchCycles .ge st
  | .lbgt _ => longBranchCycles .gt st
  | .lbhi _ => longBranchCycles .hi st
  | .lbhs _ => longBranchCycles .cc st
  | .lble _ => longBranchCycles .le st
  | .lblo _ => longBranchCycles .cs st
  | .lbls _ => longBranchCycles .ls st
  | .lblt _ => longBranchCycles .lt st
  | .lbmi _ => longBranchCycles .mi st
  | .lbne _ => longBranchCycles .ne st
  | .lbpl _ => longBranchCycles .pl st
  | .lbra _ => 5
  | .lbrn _ => 5
  | .lbsr _ => 9
  | .lbvc _ => longBranchCycles .vc st
  | .lbvs _ => longBranchCycles .vs st

end Sys2Proof.Machine
end

