-- ==== Sys2Proof/Safety.lean ====
section
/-! DEFINITION. What counts as a sound state and a safe step, and the terms the statements use: code and stacks in memory, a
boundary that runs an instruction, the forms of an instruction. -/

namespace Sys2Proof.Machine

/-! ## The invariant -/

/-- The timers of the MC6840 that are held show no interrupt flag: a flag is cleared "by the reset state of CR#1 bit 0"
(60_exceptions R300). -/
def ptmQuiet (p : Ptm) : Bool := !ptmHeld p || !(p.timer1.irq || p.timer2.irq || p.timer3.irq)

/-- The relations between fields that every reachable state has: memory in its canonical form (log 4), an NMI pending only while
NMI is armed (R273, D16), and no timer flag while the timers are held (R300). -/
structure Inv (s : State) : Prop where
  /-- The byte list is in its canonical form. -/
  memory : s.mem.wf = true
  /-- An edge is remembered only once S has been loaded. -/
  nmi : s.nmiPending = true → s.nmiArmed = true
  /-- Held timers show no flag. -/
  timers : ptmQuiet s.ptm = true

/-- The step ends in a next state: no encoding was refused. -/
def Runs (s : State) : Prop := ∃ t, step s = .next t

/-! ## Memory -/

/-- RAM answers at an address. -/
def Ram (addr : Word) (s : State) : Prop := busTarget addr s = .memory .ram

/-- RAM or ROM answers at an address: a read there has no side effect. -/
def Plain (addr : Word) (s : State) : Prop := busTarget addr s = .memory .ram ∨ busTarget addr s = .memory .rom

/-- The bytes at PC lie in RAM or ROM and are the given ones. -/
def CodeAt (s : State) : List Byte → Word → Prop
  | [], _ => True
  | b :: bs, addr => Plain addr s ∧ cellByte addr s = b ∧ CodeAt s bs (addr + 1)

/-- RAM answers at the n bytes below a stack pointer. -/
def RoomBelow (n : Nat) (p : StackPtr) (s : State) : Prop := ∀ k, 1 ≤ k → k ≤ n → Ram (getSp p s - BitVec.ofNat 16 k) s

/-- RAM or ROM answers at the n bytes from a stack pointer upward. -/
def PlainAbove (n : Nat) (p : StackPtr) (s : State) : Prop := ∀ k, k < n → Plain (getSp p s + BitVec.ofNat 16 k) s

/-- RAM and ROM hold the same bytes in two states. -/
def SameMemory (s t : State) : Prop := t.mem = s.mem ∧ t.memMap = s.memMap

/-- The devices of the board hold the same in two states. -/
def SameDevices (s t : State) : Prop := t.pia = s.pia ∧ t.ptm = s.ptm ∧ t.keys = s.keys ∧ t.display = s.display

/-! ## Boundaries -/

/-- No input, no interrupt to accept and no wait: the boundary runs the instruction at PC. -/
structure Running (s : State) : Prop where
  /-- No input is left. -/
  noInput : s.inputs = []
  /-- No interrupt is accepted. -/
  noInterrupt : acceptedInterrupt s = none
  /-- No wait is in progress. -/
  noWait : s.wait = .none

/-! ## The forms of an instruction -/

/-- The rows dir, idx, ext of a table of forms: the bytes, after those of `page`, and the cycles, where the indexed row adds what
R81 says and the extended row is one more than the direct one. -/
def MemForms (page : List Byte) (dir idx ext : Byte) (base : Nat) (mk : MemOperand → Instr) : Prop :=
  (∀ a st, encode (mk (.direct a)) = page ++ [dir, a] ∧ cycles (mk (.direct a)) st = base) ∧
  (∀ x st, encode (mk (.indexed x)) = page ++ idx :: encodeIndexed x ∧ cycles (mk (.indexed x)) st = base + indexedCycles x) ∧
  (∀ w st, encode (mk (.extended w)) = page ++ [ext, hiByte w, loByte w] ∧ cycles (mk (.extended w)) st = base + 1)

/-- The rows imm8, dir, idx, ext. -/
def Src8Forms (imm dir idx ext : Byte) (mk : Src8 → Instr) : Prop :=
  (∀ v st, encode (mk (.imm v)) = [imm, v] ∧ cycles (mk (.imm v)) st = 2) ∧
  MemForms [] dir idx ext 4 fun m => mk (.mem m)

/-- The rows imm16, dir, idx, ext. -/
def Src16Forms (page : List Byte) (imm dir idx ext : Byte) (immCycles base : Nat) (mk : Src16 → Instr) : Prop :=
  (∀ v st, encode (mk (.imm v)) = page ++ [imm, hiByte v, loByte v] ∧ cycles (mk (.imm v)) st = immCycles) ∧
  MemForms page dir idx ext base fun m => mk (.mem m)

/-- The one row of an instruction without operand. -/
def InhForm (bytes : List Byte) (count : Nat) (i : Instr) : Prop := encode i = bytes ∧ ∀ st, cycles i st = count

/-! ## What an instruction may change -/

/-- The instructions that load S and so arm NMI (R273). -/
def loadsS : Instr → Bool
  | .lds _ | .leas _ => true
  | .tfr _ r2 => r2 == .s
  | .exg r1 r2 => r1 == .s || r2 == .s
  | .pulu list => list.getLsbD 6
  | _ => false

/-- The instructions that may write DP: TFR, EXG, PUL and RTI (10_state R28). -/
def mayWriteDp : Instr → Bool
  | .tfr _ r2 => r2 == .dp
  | .exg r1 r2 => r1 == .dp || r2 == .dp
  | .puls list | .pulu list => list.getLsbD 3
  | .rti => true
  | _ => false

/-- The instructions that may write E, F or I (R287). -/
def mayWriteMasks : Instr → Bool
  | .andcc _ | .orcc _ | .cwai _ | .rti | .swi | .swi2 | .swi3 => true
  | .tfr _ r2 => r2 == .cc
  | .exg r1 r2 => r1 == .cc || r2 == .cc
  | .puls list | .pulu list => list.getLsbD 0
  | _ => false

/-- The rows of R26 with no effect on a flag. -/
def keepsFlags : Instr → Bool
  | .abx | .jmp _ | .jsr _ | .leas _ | .leau _ | .nop | .pshs _ | .pshu _ | .rts | .sync => true
  | .exg r1 r2 => r1 != .cc && r2 != .cc
  | .tfr _ r2 => r2 != .cc
  | .puls list | .pulu list => !list.getLsbD 0
  | .bcc _ | .bcs _ | .beq _ | .bge _ | .bgt _ | .bhi _ | .bhs _ | .ble _ | .blo _ | .bls _ | .blt _ | .bmi _ | .bne _ | .bpl _
  | .bra _ | .brn _ | .bsr _ | .bvc _ | .bvs _ | .lbcc _ | .lbcs _ | .lbeq _ | .lbge _ | .lbgt _ | .lbhi _ | .lbhs _ | .lble _
  | .lblo _ | .lbls _ | .lblt _ | .lbmi _ | .lbne _ | .lbpl _ | .lbra _ | .lbrn _ | .lbsr _ | .lbvc _ | .lbvs _ => true
  | _ => false

/-- The rows of R26 that replace all of CC. -/
def replacesCC : Instr → Bool
  | .andcc _ | .orcc _ | .cwai _ | .rti => true
  | .exg r1 r2 => r1 == .cc || r2 == .cc
  | .tfr _ r2 => r2 == .cc
  | .puls list | .pulu list => list.getLsbD 0
  | _ => false

/-- The rows of R26 that write H, with a value or as undefined. -/
def writesH : Instr → Bool
  | .adca _ | .adcb _ | .adda _ | .addb _ | .asla | .aslb | .asl _ | .lsla | .lslb | .lsl _ | .asra | .asrb | .asr _
  | .cmpa _ | .cmpb _ | .sbca _ | .sbcb _ | .suba _ | .subb _ | .nega | .negb | .neg _ => true
  | i => replacesCC i

/-- A flag in the column H of R26 that is not affected. -/
def keepsH (i : Instr) : Bool := !writesH i

/-- The rows of R26 that do not affect N, beside those that affect no flag. -/
def keepsN (i : Instr) : Bool :=
  match i with
  | .leax _ | .leay _ | .mul | .swi | .swi2 | .swi3 => true
  | i => keepsFlags i

/-- The rows of R26 that do not affect Z. -/
def keepsZ (i : Instr) : Bool :=
  match i with
  | .swi | .swi2 | .swi3 => true
  | i => keepsFlags i

/-- The rows of R26 that do not affect V. -/
def keepsV (i : Instr) : Bool :=
  match i with
  | .asra | .asrb | .asr _ | .leax _ | .leay _ | .lsra | .lsrb | .lsr _ | .mul | .rora | .rorb | .ror _ | .swi | .swi2
  | .swi3 => true
  | i => keepsFlags i

/-- The rows of R26 that do not affect C. -/
def keepsC (i : Instr) : Bool :=
  match i with
  | .anda _ | .andb _ | .bita _ | .bitb _ | .eora _ | .eorb _ | .ora _ | .orb _ | .lda _ | .ldb _ | .ldd _ | .lds _ | .ldu _
  | .ldx _ | .ldy _ | .sta _ | .stb _ | .std _ | .sts _ | .stu _ | .stx _ | .sty _ | .tsta | .tstb | .tst _ | .deca | .decb
  | .dec _ | .inca | .incb | .inc _ | .leax _ | .leay _ | .sex | .swi | .swi2 | .swi3 => true
  | i => keepsFlags i

/-- The index register that an indexed form updates (R75, R76). -/
def indexWritten : Indexed → List Reg
  | .inc1 r | .inc2 r _ | .dec1 r | .dec2 r _ =>
    [match r with | .x => .x | .y => .y | .u => .u | .s => .s]
  | _ => []

/-- What an indexed form does to its register: auto-increment and auto-decrement (R75, R76). -/
def indexUpdate (m : Indexed) (s : State) : State :=
  match m with
  | .inc1 r => setIdx r (getIdx r s + 1) s
  | .inc2 r _ => setIdx r (getIdx r s + 2) s
  | .dec1 r => setIdx r (getIdx r s - 1) s
  | .dec2 r _ => setIdx r (getIdx r s - 2) s
  | _ => s

/-- What a memory operand does to an index register. -/
def operandUpdate (m : MemOperand) (s : State) : State :=
  match m with
  | .indexed x => indexUpdate x s
  | _ => s

/-- The addresses that computing an effective address reads: the two bytes of an indirect form's pointer (R77). -/
def pointerReads (m : MemOperand) (s : State) : List Word :=
  match m with
  | .indexed x => if isIndirect x then [(indexedBase x s).1, (indexedBase x s).1 + 1] else []
  | _ => []

/-- The index register that a memory operand updates. -/
def operandWrites : MemOperand → List Reg
  | .indexed m => indexWritten m
  | _ => []

/-- The index register that an 8-bit source operand updates. -/
def source8Writes : Src8 → List Reg
  | .mem m => operandWrites m
  | _ => []

/-- The index register that a 16-bit source operand updates. -/
def source16Writes : Src16 → List Reg
  | .mem m => operandWrites m
  | _ => []

/-- The registers that a pull of a list loads; writing A or B writes D (R22, R83). -/
def listWrites (other : Reg) (list : Byte) : List Reg :=
  (if list.getLsbD 1 then [.a, .d] else []) ++ (if list.getLsbD 2 then [.b, .d] else []) ++
  (if list.getLsbD 3 then [.dp] else []) ++ (if list.getLsbD 4 then [.x] else []) ++ (if list.getLsbD 5 then [.y] else []) ++
  if list.getLsbD 6 then [other] else []

/-- A register with those that share its storage (R22). -/
def withHalves : Reg → List Reg
  | .d => [.d, .a, .b]
  | .a => [.a, .d]
  | .b => [.b, .d]
  | r => [r]

/-- The registers other than PC and CC that an instruction may write: the writers of R23, with the index register that its
addressing mode updates. -/
def writesRegs : Instr → List Reg
  | .abx => [.x]
  | .adca src | .adda src | .anda src | .eora src | .lda src | .ora src | .sbca src | .suba src =>
    [.a, .d] ++ source8Writes src
  | .adcb src | .addb src | .andb src | .eorb src | .ldb src | .orb src | .sbcb src | .subb src =>
    [.b, .d] ++ source8Writes src
  | .addd src | .subd src | .ldd src => [.d, .a, .b] ++ source16Writes src
  | .bita src | .bitb src | .cmpa src | .cmpb src => source8Writes src
  | .cmpd src | .cmps src | .cmpu src | .cmpx src | .cmpy src => source16Writes src
  | .asla | .asra | .clra | .coma | .daa | .deca | .inca | .lsla | .lsra | .nega | .rola | .rora | .sex => [.a, .d]
  | .aslb | .asrb | .clrb | .comb | .decb | .incb | .lslb | .lsrb | .negb | .rolb | .rorb => [.b, .d]
  | .asl m | .asr m | .clr m | .com m | .dec m | .inc m | .jmp m | .lsl m | .lsr m | .neg m | .rol m | .ror m | .sta m | .stb m
  | .std m | .sts m | .stu m | .stx m | .sty m | .tst m => operandWrites m
  | .exg r1 r2 => withHalves r1 ++ withHalves r2
  | .tfr _ r2 => withHalves r2
  | .jsr m => .s :: operandWrites m
  | .lds src => .s :: source16Writes src
  | .ldu src => .u :: source16Writes src
  | .ldx src => .x :: source16Writes src
  | .ldy src => .y :: source16Writes src
  | .leas m => .s :: indexWritten m
  | .leau m => .u :: indexWritten m
  | .leax m => .x :: indexWritten m
  | .leay m => .y :: indexWritten m
  | .mul => [.a, .b, .d]
  | .pshs _ | .swi | .swi2 | .swi3 | .cwai _ | .rts | .bsr _ | .lbsr _ => [.s]
  | .pshu _ => [.u]
  | .puls list => .s :: listWrites .u list
  | .pulu list => .u :: listWrites .s list
  | .rti => [.a, .b, .d, .dp, .x, .y, .u, .s]
  | .andcc _ | .orcc _ | .nop | .sync | .tsta | .tstb => []
  | .bcc _ | .bcs _ | .beq _ | .bge _ | .bgt _ | .bhi _ | .bhs _ | .ble _ | .blo _ | .bls _ | .blt _ | .bmi _ | .bne _ | .bpl _
  | .bra _ | .brn _ | .bvc _ | .bvs _ | .lbcc _ | .lbcs _ | .lbeq _ | .lbge _ | .lbgt _ | .lbhi _ | .lbhs _ | .lble _
  | .lblo _ | .lbls _ | .lblt _ | .lbmi _ | .lbne _ | .lbpl _ | .lbra _ | .lbrn _ | .lbvc _ | .lbvs _ => []

end Sys2Proof.Machine
end

