-- ==== Sys2Proof/Machine/Monitor.lean ====
section
/-! DEFINITION. What the spec says of the monitor program: its RAM vector table and its dispatch (60_exceptions R290, R291), the
keyboard matrix and the key codes (R303, R305), the entry points and contracts of its routines (R306), and the state in which it
starts a user program (R307, 70_reset_and_hazards R333). The monitor's code is ROM_IMAGE and stays open (log 26); nothing of this
file takes part in a step. -/

namespace Sys2Proof.Machine

/-! ## The RAM vector table -/

/-- The sources that have an entry in the RAM vector table, in the table's order (R290). -/
inductive VectorSource where
  | timer1 | timer3 | timer2 | nmiConnector | firqConnector | ca1 | cb1 | ca2 | cb2 | mc6850 | r6551 | irqConnector
  | swi1 | swi2FromRom | swi2FromRam | swi3FromRom | swi3FromRam
  deriving DecidableEq, Repr

/-- The address of a source's entry (R290). -/
def ramVector : VectorSource → Word
  | .timer1 => 0x002C
  | .timer3 => 0x002E
  | .timer2 => 0x0030
  | .nmiConnector => 0x0032
  | .firqConnector => 0x0034
  | .ca1 => 0x0036
  | .cb1 => 0x0038
  | .ca2 => 0x003A
  | .cb2 => 0x003C
  | .mc6850 => 0x003E
  | .r6551 => 0x0040
  | .irqConnector => 0x0042
  | .swi1 => 0x0044
  | .swi2FromRom => 0x0046
  | .swi2FromRam => 0x0048
  | .swi3FromRom => 0x004A
  | .swi3FromRam => 0x004C

/-- The value the monitor writes into a source's entry at start-up (R290). -/
def ramPreset : VectorSource → Word
  | .timer2 => 0xE670
  | .ca1 => 0xE520
  | .swi1 => 0xEC40
  | .swi2FromRom => 0xE4E0
  | .swi3FromRom => 0xE640
  | .timer1 | .timer3 | .nmiConnector | .firqConnector | .cb1 | .ca2 | .cb2 | .mc6850 | .r6551 | .irqConnector
  | .swi2FromRam | .swi3FromRam => 0xE667

/-- All sources of the table. -/
def allSources : List VectorSource :=
  [.timer1, .timer3, .timer2, .nmiConnector, .firqConnector, .ca1, .cb1, .ca2, .cb2, .mc6850, .r6551, .irqConnector, .swi1,
   .swi2FromRom, .swi2FromRam, .swi3FromRom, .swi3FromRam]

/-! ## The monitor's dispatch -/

/-- The input of the CPU that a source drives: given by name for the connectors, the MC6850 and the R6551, open for the devices
(R291 item 3, log 25). -/
def inputOf : VectorSource → Option Config.CpuInput
  | .nmiConnector => some .nmi
  | .firqConnector => some .firq
  | .irqConnector | .mc6850 | .r6551 => some .irq
  | .timer1 | .timer2 | .timer3 => some Config.timerInput
  | .ca1 | .ca2 => some Config.portAInput
  | .cb1 | .cb2 => some Config.portBInput
  | .swi1 | .swi2FromRom | .swi2FromRam | .swi3FromRom | .swi3FromRam => none

/-- Whether a timer of the MC6840 requests an interrupt (R300). -/
def timerRequests (t : Timer) : Bool := t.irq && t.ctrl.getLsbD 6

/-- Whether line 1 of a port of the MC6821 requests an interrupt (R295). -/
def line1Requests (p : PiaPort) : Bool := p.irq1 && p.ctrl.getLsbD 0

/-- Whether line 2 of a port of the MC6821 requests an interrupt (R295). -/
def line2Requests (p : PiaPort) : Bool := p.irq2 && p.ctrl.getLsbD 3 && !p.ctrl.getLsbD 5

/-- Whether a source requests: what its device's status shows; of a source without registers nothing is known. -/
def requests (k : VectorSource) (st : State) : Bool :=
  match k with
  | .timer1 => timerRequests st.ptm.timer1
  | .timer2 => timerRequests st.ptm.timer2
  | .timer3 => timerRequests st.ptm.timer3
  | .ca1 => line1Requests st.pia.portA
  | .cb1 => line1Requests st.pia.portB
  | .ca2 => line2Requests st.pia.portA
  | .cb2 => line2Requests st.pia.portB
  | .nmiConnector | .firqConnector | .irqConnector | .mc6850 | .r6551 | .swi1 | .swi2FromRom | .swi2FromRam | .swi3FromRom
  | .swi3FromRam => true

/-- Whether the SWI2 or SWI3 that PC is past was executed from ROM: its first byte lies there (R291 item 1, log 35). -/
def fromRom (st : State) : Bool := busTarget (st.pc - 2) st == .memory .rom

/-- Whether the ROM handler of a CPU vector serves a source: for the inputs, each source on that input; for SWI2 and SWI3, by where
the instruction was executed (R291 item 1). The order among sources on one input "is not given" (R291 item 4). -/
def servedBy (k : Interrupt) (source : VectorSource) (s : State) : Bool :=
  match k with
  | .nmi => inputOf source == some .nmi
  | .firq => inputOf source == some .firq
  | .irq => inputOf source == some .irq
  | .swi => source == .swi1
  | .swi2 => source == if fromRom s then .swi2FromRom else .swi2FromRam
  | .swi3 => source == if fromRom s then .swi3FromRom else .swi3FromRam

/-- Control goes through a source's entry: `pc <- MemRead(entry(k), 2)` (R291). -/
def monitorDispatch (k : VectorSource) (st : State) : State := jumpThrough (ramVector k) st

/-- The monitor's dispatch as a contract that replaces its code: "on a device interrupt of source `k`, after the CPU's entry
sequence, `pc <- MemRead(entry(k), 2)`" (R291, D9). For a timer of the MC6840 on FIRQ the frame is then the short one of that entry
sequence, where item 3 asks the ROM for an entire one (`frameFor`): DESIGN CHOICE (log 35). -/
def monitorInterrupt (k : Interrupt) (source : VectorSource) (s : State) : State :=
  monitorDispatch source (raiseInterrupt k s)

/-- The state with the frame that a handler finds on top of S: the one of the entry sequence; for a timer of the MC6840 an entire
one, which the dispatcher itself makes if the MC6840 drives FIRQ (R291 items 2, 3). -/
def frameFor (k : Interrupt) (source : VectorSource) (s : State) : State :=
  match source with
  | .timer1 | .timer2 | .timer3 => stackFor (match k with | .firq => .irq | k => k) s
  | _ => stackFor k s

/-! ## The keyboard -/

/-- The keys of the board's matrix. -/
inductive Key where
  /-- A hexadecimal data key. -/
  | data (n : BitVec 4)
  | plus | minus | a | d | r | g | s | l | t | f1 | f2 | f3
  deriving DecidableEq, Repr

/-- The code that the monitor's keyboard routines return in B (R305). -/
def keyCode : Key → Byte
  | .data n => n.setWidth 8
  | .plus => 0x80
  | .minus => 0x81
  | .a => 0x82
  | .d => 0x83
  | .r => 0x84
  | .g => 0x85
  | .s => 0x86
  | .l => 0x87
  | .t => 0x88
  | .f1 => 0x89
  | .f2 => 0x8A
  | .f3 => 0x8B

/-- The keys of one row of the matrix on the lines X1, X2, X4, X8, row 0 at $F010 (R303). -/
def keyRowKeys (row : Fin 7) : List Key :=
  match row with
  | 0 => [.f3, .f2, .f1, .t]
  | 1 => [.data 0x0, .data 0x4, .data 0x8, .data 0xC]
  | 2 => [.data 0x1, .data 0x5, .data 0x9, .data 0xD]
  | 3 => [.data 0x2, .data 0x6, .data 0xA, .data 0xE]
  | 4 => [.data 0x3, .data 0x7, .data 0xB, .data 0xF]
  | 5 => [.plus, .a, .r, .s]
  | 6 => [.minus, .d, .g, .l]

/-! ## The routines -/

/-- The monitor's routines by the source's names (R306). -/
inductive Routine where
  | t7sg | b7sg | d7sg | clrdisp | showa | showd | showyd | showt7sg | showb7sg | showd7sg | cldbuf | showdbuf | rrdbuf
  | rldbuf | copydbuf | key | haltkey | showkey | showhkey | indata | showdata | inadr | showadr | dly1ms | random | copyxd
  deriving DecidableEq, Repr

/-- Where a routine is entered (R306). -/
def routineEntry : Routine → Word
  | .t7sg => 0xF100
  | .b7sg => 0xF103
  | .d7sg => 0xF106
  | .clrdisp => 0xF110
  | .showa => 0xF113
  | .showd => 0xF116
  | .showyd => 0xF119
  | .showt7sg => 0xF11C
  | .showb7sg => 0xF120
  | .showd7sg => 0xF123
  | .cldbuf => 0xF130
  | .showdbuf => 0xF133
  | .rrdbuf => 0xF136
  | .rldbuf => 0xF139
  | .copydbuf => 0xF13C
  | .key => 0xF140
  | .haltkey => 0xF143
  | .showkey => 0xF146
  | .showhkey => 0xF149
  | .indata => 0xF14C
  | .showdata => 0xF150
  | .inadr => 0xF153
  | .showadr => 0xF156
  | .dly1ms => 0xF160
  | .random => 0xF163
  | .copyxd => 0xF166

/-! ## The contracts of the routines -/

/-- The word a RAM or ROM address holds, high byte first (R43). -/
def cellWord (addr : Word) (st : State) : Word := catBytes (cellByte addr st) (cellByte (addr + 1) st)

/-- The registers of a routine: where it takes its arguments and leaves its results, and which others it preserves (R306). -/
structure RoutineRegisters where
  arguments : List Reg
  results : List Reg
  keeps : List Reg
  deriving DecidableEq, Repr

/-- The registers that R306 names; X is preserved by the four routines for which the listings rely on it. -/
def registersOf : Routine → RoutineRegisters
  | .t7sg => ⟨[.b], [.a], []⟩
  | .b7sg => ⟨[.b], [.d], []⟩
  | .d7sg => ⟨[.d], [.d, .y], []⟩
  | .clrdisp => ⟨[], [], []⟩
  | .showa => ⟨[.a, .x], [], []⟩
  | .showd => ⟨[.d, .x], [], []⟩
  | .showyd => ⟨[.y, .d, .x], [], []⟩
  | .showt7sg => ⟨[.b, .x], [], []⟩
  | .showb7sg => ⟨[.b, .x], [], []⟩
  | .showd7sg => ⟨[.d, .x], [], [.x]⟩
  | .cldbuf => ⟨[.x], [], []⟩
  | .showdbuf => ⟨[.x], [], []⟩
  | .rrdbuf => ⟨[.x], [], []⟩
  | .rldbuf => ⟨[.x], [], []⟩
  | .copydbuf => ⟨[.x], [], []⟩
  | .key => ⟨[], [.b], [.x]⟩
  | .haltkey => ⟨[], [.b], [.x]⟩
  | .showkey => ⟨[], [.b], []⟩
  | .showhkey => ⟨[], [.b], []⟩
  | .indata => ⟨[], [.a, .b], []⟩
  | .showdata => ⟨[], [.a, .b], []⟩
  | .inadr => ⟨[], [.y, .b], []⟩
  | .showadr => ⟨[], [.y, .b], []⟩
  | .dly1ms => ⟨[.y], [], [.x]⟩
  | .random => ⟨[.y], [.y], []⟩
  | .copyxd => ⟨[.x, .y, .d], [], []⟩

/-- The 7-segment codes of the two nibbles of a byte, the low nibble first. -/
def digitCodes (b : Byte) : List Byte := [Config.segments (b.extractLsb' 0 4), Config.segments (b.extractLsb' 4 4)]

/-- The display shows bytes from the digit of a position to the left: "Position in X is the number n of the rightmost display digit
Sn the value occupies; further digits go to the left" (R306). -/
def ShowsAt (position : Word) (bytes : List Byte) (st : State) : Prop :=
  ∀ (k : Fin bytes.length) (n : Fin 8), n.val = position.toNat + k.val → st.display.get n = bytes.get k

/-- The eight bytes of a display buffer, digit S0 first. That it has a byte for each digit: DEDUCED (log 33). -/
def bufferDigits (addr : Word) (st : State) : List Byte :=
  let bytes := (List.range 8).map fun k => cellByte (addr + BitVec.ofNat 16 k) st
  if Config.bufferFromRight then bytes else bytes.reverse

/-- A key is pressed (R303). -/
def Pressed (k : Key) (st : State) : Prop :=
  ∃ (row : Fin 7) (line : Fin 4), (keyRowKeys row)[line.val]? = some k ∧ (st.keys.get row).getLsbD line.val = true

/-- B holds the code of a key that was pressed in one of the states passed (R305). -/
def HoldsKeyCode (t : State) (passed : List State) : Prop := ∃ k : Key, t.b = keyCode k ∧ ∃ u ∈ passed, Pressed k u

/-- B holds the value for no key, and no key was pressed in one of the states passed; the value differs from the two codes that R305
names. -/
def HoldsNoKey (t : State) (passed : List State) : Prop :=
  t.b = Config.noKey ∧ t.b ≠ keyCode .plus ∧ t.b ≠ keyCode .minus ∧ ∃ u ∈ passed, ∀ k, ¬ Pressed k u

/-- The display shows bytes somewhere: R306 gives no position for the keyboard routines that display (log 33). -/
def ShowsSomewhere (bytes : List Byte) (t : State) : Prop :=
  ∃ position : Nat, position + bytes.length ≤ 8 ∧ ShowsAt (BitVec.ofNat 16 position) bytes t

/-- The display shows the key whose code is in B, in at least one digit (log 33). -/
def ShowsKey (t : State) : Prop := ShowsSomewhere [Config.keyPattern t.b] t

/-- The eight addresses of a display buffer. -/
def bufferBytes (addr : Word) : List Word := (List.range 8).map fun k => addr + BitVec.ofNat 16 k

/-- The addresses of the two areas of COPYXD. -/
def areaBytes (addr : Word) (s : State) : List Word := (List.range (regD s).toNat).map fun k => addr + BitVec.ofNat 16 k

/-- One area holds after the call what the other held before it. -/
def AreaCopied (source target : Word) (s t : State) : Prop :=
  ∀ k, k < (regD s).toNat → cellByte (target + BitVec.ofNat 16 k) t = cellByte (source + BitVec.ofNat 16 k) s

/-- What R306 states of a routine's result, from the state at its entry to the state after its return, with the states passed on the
way. Where the order of two result registers is not stated every order is allowed. INDATA, SHOWDATA, INADR and SHOWADR return only
with the code of a key, as routines that wait for one (`waitsForKey`): DESIGN CHOICE. In the display a word lies as it is written, its
low byte and low nibble to the right, and Y left of D: DEDUCED. COPYXD on areas that overlap is left open, since R306 states nothing
of them: DESIGN CHOICE. Log 33 names these points and every other one that R306 leaves open. -/
def RoutineEffect (r : Routine) (s t : State) (passed : List State) : Prop :=
  match r with
  | .t7sg => t.a = Config.segments (s.b.extractLsb' 0 4)
  | .b7sg => [t.a, t.b].Perm (digitCodes s.b)
  | .d7sg => [t.a, t.b, hiByte t.y, loByte t.y].Perm (digitCodes s.b ++ digitCodes s.a)
  | .clrdisp => t.display = Vector.replicate 8 0
  | .showa => ShowsAt s.x [s.a] t
  | .showd => ShowsAt s.x [s.b, s.a] t
  | .showyd => ShowsAt s.x [s.b, s.a, loByte s.y, hiByte s.y] t
  | .showt7sg => ShowsAt s.x [Config.segments (s.b.extractLsb' 0 4)] t
  | .showb7sg => ShowsAt s.x (digitCodes s.b) t
  | .showd7sg => ShowsAt s.x (digitCodes s.b ++ digitCodes s.a) t
  | .cldbuf => bufferDigits s.x t = List.replicate 8 0
  | .showdbuf => t.display.toList = bufferDigits s.x s
  | .rrdbuf => bufferDigits s.x t = (bufferDigits s.x s).rotateLeft 1
  | .rldbuf => bufferDigits s.x t = (bufferDigits s.x s).rotateRight 1
  | .copydbuf =>
    bufferDigits Config.displayBuffer t = bufferDigits s.x s ∨ bufferDigits s.x t = bufferDigits Config.secondBuffer s
  | .key => HoldsKeyCode t passed ∨ HoldsNoKey t passed
  | .haltkey => HoldsKeyCode t passed
  | .showkey => (HoldsKeyCode t passed ∧ ShowsKey t) ∨ HoldsNoKey t passed
  | .showhkey => HoldsKeyCode t passed ∧ ShowsKey t
  | .indata => HoldsKeyCode t passed
  | .showdata => HoldsKeyCode t passed ∧ ShowsSomewhere (digitCodes t.a) t
  | .inadr => HoldsKeyCode t passed
  | .showadr => HoldsKeyCode t passed ∧ ShowsSomewhere (digitCodes (loByte t.y) ++ digitCodes (hiByte t.y)) t
  | .dly1ms => True
  | .random => t.y = Config.nextRandom s.y
  | .copyxd => (∀ a ∈ areaBytes s.x s, a ∉ areaBytes s.y s) → AreaCopied s.x s.y s t ∨ AreaCopied s.y s.x s t

/-- The bytes that a routine stores to for its caller (R306). The monitor's display buffer is none of them, since it is the monitor's
own RAM (`OwnBuffers`). -/
def routineTargets (r : Routine) (s : State) : List Word :=
  match r with
  | .cldbuf | .rrdbuf | .rldbuf | .copydbuf => bufferBytes s.x
  | .copyxd => areaBytes s.x s ++ areaBytes s.y s
  | .t7sg | .b7sg | .d7sg | .clrdisp | .showa | .showd | .showyd | .showt7sg | .showb7sg | .showd7sg | .showdbuf | .key | .haltkey
  | .showkey | .showhkey | .indata | .showdata | .inadr | .showadr | .dly1ms | .random => []

/-- Memory is unchanged but for some bytes below S, some bytes listed, and the RAM that the monitor uses of its own (R307 item 5). -/
def OnlyChanges (stack targets : List Word) (s t : State) : Prop :=
  ∀ a, a ∉ stack → a ∉ targets → Config.monitorRam a = false → cellByte a t = cellByte a s

/-- The monitor's display buffer, and the second buffer that COPYDBUF may read, are RAM that the monitor uses of its own (R307 item
5: "at least ... a display buffer"; log 33 for the second one). -/
def OwnBuffers (s : State) : Prop :=
  ∀ a ∈ bufferBytes Config.displayBuffer ++ bufferBytes Config.secondBuffer, Ram a s ∧ Config.monitorRam a = true

/-- The bytes below S that a routine may use: "No ... stack depth is stated" (R306), so their number is open. -/
def routineStack (s : State) : List Word := below s.s Config.routineDepth

/-- The contract of a routine, from the state at its entry to the state after its return: every register that is no result and not
preserved may hold anything: "A contract model must treat every register not named here as unspecified after a call" (R306). -/
structure Contract (r : Routine) (s t : State) (passed : List State) : Prop where
  /-- Control is back at the address that JSR pushed. -/
  returned : t.pc = cellWord s.s s
  /-- S is above that address. -/
  stack : t.s = s.s + 2
  /-- The result is as R306 states. -/
  effect : RoutineEffect r s t passed
  /-- The registers it preserves are. -/
  registers : ∀ k ∈ (registersOf r).keeps, getReg k t = getReg k s
  /-- The bytes of the user are left alone (R307 item 5). -/
  memory : OnlyChanges (routineStack s) (routineTargets r s) s t

/-! ## What the ROM must do -/

/-- The next boundary brings RESET or an interrupt, rather than the next instruction. -/
def disturbed (st : State) : Bool :=
  match st.inputs with
  | [] => (acceptedInterrupt st).isSome
  | inp :: rest => inp.reset || inp.resetDuring.isSome || (acceptedInterrupt (takeInput inp rest st)).isSome

/-- How a watched run ends. -/
inductive Ending where
  /-- In a state that was waited for, with every state passed, that one among them. -/
  | stopped (t : State) (passed : List State)
  /-- RESET or an interrupt came first. -/
  | disturbed
  /-- A step was refused. -/
  | refused
  /-- Not within the steps allowed. -/
  | unfinished
  deriving DecidableEq, Repr

/-- Runs at most so many steps, up to the first state that is waited for. -/
def watch (stop : State → Bool) : Nat → State → List State → Ending
  | 0, _, _ => .unfinished
  | n + 1, st, passed =>
    if stop st then .stopped st (st :: passed)
    else if disturbed st then .disturbed
    else match step st with
      | .next t => watch stop n t (st :: passed)
      | _ => .refused

/-- The inputs that only press and release keys. -/
def OnlyKeys (inputs : List BoundaryInput) : Prop := ∀ inp ∈ inputs, ∀ e ∈ inp.events, ∃ row keys, e = .keyRow row keys

/-- The run from a state does what it must: no step of it is refused, what is wanted holds where it stops, and, unless it is
disturbed, it stops; one that waits for keys stops for some keys. -/
structure Ends (stop : State → Bool) (waits : Bool) (s : State) (wanted : State → List State → Prop) : Prop where
  /-- No encoding without a meaning is reached. -/
  runs : ∀ n, watch stop n s [] ≠ .refused
  /-- What is wanted holds. -/
  holds : ∀ n t passed, watch stop n s [] = .stopped t passed → wanted t passed
  /-- It comes to an end. -/
  ends : if waits then ∃ inputs n t passed, OnlyKeys inputs ∧ watch stop n { s with inputs } [] = .stopped t passed
    else ∃ n, watch stop n s [] ≠ .unfinished

/-- The routines that wait for a key. R306 says "waiting" of HALTKEY and SHOWHKEY alone; that INDATA, SHOWDATA, INADR and SHOWADR wait
too, and so always return the code of a key, is left open there: DESIGN CHOICE (log 33). -/
def waitsForKey : Routine → Bool
  | .haltkey | .showhkey | .indata | .showdata | .inadr | .showadr => true
  | _ => false

/-- How many digits a value occupies, for the routines that take a position in X (R306). -/
def digitsShown : Routine → Option Nat
  | .showa | .showt7sg => some 1
  | .showd | .showb7sg => some 2
  | .showyd | .showd7sg => some 4
  | _ => none

/-- A byte of RAM that a routine may be given: neither the monitor's own nor at its return address or below. -/
def Lent (a : Word) (s : State) : Prop :=
  Ram a s ∧ Config.monitorRam a = false ∧ a ∉ routineStack s ∧ a ≠ s.s ∧ a ≠ s.s + 1

/-- The arguments make sense: the value fits into the display, a buffer and an area lie in RAM, the display buffer being the
monitor's own (log 33). -/
def ArgumentsFit (r : Routine) (s : State) : Prop :=
  (∀ n, digitsShown r = some n → s.x.toNat + n ≤ 8) ∧
  match r with
  | .showdbuf | .cldbuf | .rrdbuf | .rldbuf | .copydbuf => s.x = Config.displayBuffer ∨ ∀ a ∈ bufferBytes s.x, Lent a s
  | .copyxd => ∀ a ∈ areaBytes s.x s ++ areaBytes s.y s, Lent a s
  | _ => True

/-- A routine is called as a program calls it. -/
structure Called (r : Routine) (s : State) : Prop where
  /-- PC is at its entry point. -/
  entered : s.pc = routineEntry r
  /-- No wait is in progress. -/
  awake : s.wait = .none
  /-- Direct addressing reaches page 0, as the monitor has set it (R307 item 2, log 26). -/
  page0 : s.dp = 0
  /-- The keys change between two instructions only (log 26). -/
  keyboard : ∀ es ∈ s.between, ∀ row keys, DeviceEvent.keyRow row keys ∉ es
  /-- No NMI edge is left. -/
  quiet : s.nmiPending = false
  /-- The return address lies in RAM that is not the monitor's own. -/
  address : ∀ a ∈ [s.s, s.s + 1], Ram a s ∧ Config.monitorRam a = false
  /-- Below it is RAM for the routine. -/
  room : ∀ a ∈ routineStack s, Ram a s ∧ Config.monitorRam a = false
  /-- The arguments make sense. -/
  arguments : ArgumentsFit r s

/-- The ROM runs a routine to its return and meets the contract, and the monitor stays in order. -/
def MeetsContract (inOrder : State → Prop) (r : Routine) (s : State) : Prop :=
  Ends (fun t => t.pc == cellWord s.s s && t.s == s.s + 2) (waitsForKey r) s fun t passed => Contract r s t passed ∧ inOrder t

/-- A handler has been given control: through the entry of a source that the vector serves and that requested, with the frame on top
of the S stack (R291 items 1, 2, 3). -/
structure HandedOver (k : Interrupt) (source : VectorSource) (s t : State) (passed : List State) : Prop where
  /-- The vector serves the source. -/
  served : servedBy k source s = true
  /-- The source requested. -/
  requested : ∃ u ∈ passed, requests source u = true
  /-- PC is the address held in the source's entry. -/
  handler : t.pc = cellWord (ramVector source) t
  /-- S is at the frame. -/
  stack : t.s = (frameFor k source s).s
  /-- The frame, and what lies above it, is as it was stacked. -/
  frame : ∀ n, n < 12 → cellByte (t.s + BitVec.ofNat 16 n) t = cellByte (t.s + BitVec.ofNat 16 n) (frameFor k source s)

/-- A state of the run has the PC and the S of a handler that is given control. -/
def atHandler (k : Interrupt) (s t : State) : Bool :=
  allSources.any fun source =>
    servedBy k source s && t.pc == cellWord (ramVector source) t && t.s == (frameFor k source s).s

/-- The bytes below S that an entry and the dispatcher may use. -/
def dispatchStack (s : State) : List Word := below s.s (12 + Config.routineDepth)

/-- An interrupt arrives where the monitor can dispatch it. -/
structure Interrupted (k : Interrupt) (s : State) : Prop where
  /-- A software interrupt is an instruction, so no wait is in progress. -/
  awake : k = .swi ∨ k = .swi2 ∨ k = .swi3 → s.wait = .none
  /-- The devices change between two instructions only (log 26). -/
  steady : s.between = []
  /-- Below S is RAM for the frame and the dispatcher. -/
  room : ∀ a ∈ dispatchStack s, Ram a s ∧ Config.monitorRam a = false
  /-- The table lies in RAM, apart from the stack. -/
  table : ∀ source, Ram (ramVector source) s ∧ Ram (ramVector source + 1) s ∧ ramVector source ∉ dispatchStack s ∧
    ramVector source + 1 ∉ dispatchStack s

/-- The ROM dispatches an interrupt through the RAM table: its handler, entered through the CPU's vector, gives control to the
handler of a source that interrupted (R291), and the monitor stays in order. -/
def Dispatches (inOrder : State → Prop) (k : Interrupt) (s : State) : Prop :=
  Ends (atHandler k s) false (raiseInterrupt k s) fun t passed =>
    (∃ source, HandedOver k source s t passed) ∧ OnlyChanges (dispatchStack s) [] s t ∧ inOrder t

/-- Two states have the same ROM. -/
def SameRom (s t : State) : Prop :=
  t.memMap = s.memMap ∧ ∀ a, busTarget a s = .memory .rom → cellByte a t = cellByte a s

/-- The ROM of a state serves user programs as long as the monitor's own RAM is in order, which it is and stays: every routine meets
its contract whenever it is called, and every interrupt is dispatched (R291, R306, R307 items 1, 4). -/
structure ServesPrograms (inOrder : State → Prop) (st : State) : Prop where
  /-- The monitor's RAM is in order. -/
  now : inOrder st
  /-- Its buffers lie there (R307 item 5). -/
  buffers : OwnBuffers st
  /-- That depends on the ROM and on the monitor's own RAM alone. -/
  own : ∀ s t, SameRom s t → (∀ a, Config.monitorRam a = true → cellByte a t = cellByte a s) → inOrder s → inOrder t
  /-- Every routine meets its contract. -/
  routines : ∀ r s, SameRom st s → inOrder s → Called r s → MeetsContract inOrder r s
  /-- Every interrupt is dispatched. -/
  dispatch : ∀ k s, SameRom st s → inOrder s → Interrupted k s → Dispatches inOrder k s

/-! ## The start of a user program -/

/-- The monitor's handlers (R290, R307 item 4). -/
inductive MonitorHandler where
  | go | breakKey | traceSwi3 | rti | traceTimer | breakpoint
  deriving DecidableEq, Repr

/-- Where a handler is (R307 item 4). -/
def handlerEntry : MonitorHandler → Word
  | .go => 0xE4E0
  | .breakKey => 0xE520
  | .traceSwi3 => 0xE640
  | .rti => 0xE667
  | .traceTimer => 0xE670
  | .breakpoint => 0xEC40

/-- Whether a mask keeps an input of the CPU out (R272). -/
def inputMasked (k : Config.CpuInput) (cc : CC) : Bool :=
  match k with
  | .nmi => false
  | .firq => cc.f
  | .irq => cc.i

/-- The bytes that the listings take as free for the user: $0000 to $0002, and the program's own from $0400 (R307 item 5). -/
def userBytes (size : Nat) : List Word :=
  [0x0000, 0x0001, 0x0002] ++ (List.range size).map fun k => userStart + BitVec.ofNat 16 k

/-- What a user program of so many bytes, with so many nested calls, finds when the monitor starts it at $0400 (R307, R333): item 1,
the CPU's vectors point to ROM handlers that dispatch through the RAM table; item 2, the presets of that table, S in RAM with room for
the calls, a routine and one entire frame, NMI armed, DP = $00; item 3, the input of the MC6840 is not masked; item 4, the routines
and handlers are at their addresses; item 5, the user's bytes are RAM that the monitor does not use. The values of the other
registers and flags are not stated. -/
structure UserProgramStart (calls size : Nat) (s : State) : Prop where
  /-- PC is at the `ORG` address of the listings. -/
  atStart : s.pc = userStart
  /-- Direct addressing reaches page 0. -/
  page0 : s.dp = 0
  /-- The monitor has loaded S. -/
  armed : s.nmiArmed = true
  /-- No wait is in progress. -/
  awake : s.wait = .none
  /-- S is an address in RAM (item 2). -/
  stack : Ram s.s s
  /-- Below S lies RAM for the return addresses, a routine and a frame, apart from the program, the table and the monitor's own. -/
  room : ∀ a ∈ below s.s (2 * calls + Config.routineDepth + 12),
    Ram a s ∧ a ∉ userBytes size ∧ Config.monitorRam a = false ∧ (a < 0x002C ∨ 0x004D < a)
  /-- The RAM vector table holds its presets. -/
  presets : ∀ k : VectorSource, cellWord (ramVector k) s = ramPreset k
  /-- The RAM vector table lies in RAM (R290). -/
  table : ∀ a : Word, 0x002C ≤ a → a ≤ 0x004D → Ram a s ∧ Config.monitorRam a = false
  /-- The CPU's vectors lie in the ROM and point into it (item 1). -/
  vectors : ∀ k : Interrupt, busTarget (vectorOf k) s = .memory .rom ∧ busTarget (vectorOf k + 1) s = .memory .rom ∧
    busTarget (cellWord (vectorOf k) s) s = .memory .rom
  /-- RESET starts the monitor, in the ROM (item 1). -/
  monitor : busTarget (cellWord resetVector s) s = .memory .rom
  /-- The input that the MC6840 drives is not masked (item 3). -/
  timerUnmasked : inputMasked Config.timerInput s.cc = false
  /-- The routines are in the ROM (item 4). -/
  routines : ∀ r : Routine, busTarget (routineEntry r) s = .memory .rom
  /-- The ROM dispatches through the RAM table (item 1) and its routines meet their contracts (item 4). -/
  serves : ∃ inOrder, ServesPrograms inOrder s
  /-- The handlers are in the ROM (item 4). -/
  handlers : ∀ h : MonitorHandler, busTarget (handlerEntry h) s = .memory .rom
  /-- "an `RTI` opcode `$3B` at `$E667`" (item 4). -/
  rtiByte : cellByte (handlerEntry .rti) s = 0x3B
  /-- The user's bytes are RAM and not the monitor's, whose buffers are elsewhere by `ServesPrograms.buffers` (item 5). -/
  user : ∀ a ∈ userBytes size, Ram a s ∧ Config.monitorRam a = false

end Sys2Proof.Machine
end

