-- ==== Sys2Proof/Certificates/Slice0/Obligations.lean ====
section
/-! DEFINITION. The statements about the model, each a proposition named `Obligations.<Name>`, listed in OBLIGATIONS.json. -/

open Sys2Proof Sys2Proof.Machine

/-! ## Encoding -/

/-- The decoder reads back every well-formed instruction, with every operand, from the bytes the encoder writes, and leaves the
bytes behind them (30_encoding R60 to R86). A second mnemonic reads back as the first (R92). -/
def Obligations.DecodeInvertsEncode : Prop :=
  ∀ (i : Instr) (rest : List Byte), i.wellFormed = true → decode (encode i ++ rest) = .ok (canonical i) rest

/-- The second mnemonics are other names of the same instructions, and there are no others (R92): two well-formed instructions
have the same bytes exactly when they are the same up to the mnemonic, and then they have the same effect and the same count. -/
def Obligations.SecondMnemonics : Prop :=
  (∀ i j : Instr, i.wellFormed = true → j.wellFormed = true → (encode i = encode j ↔ canonical i = canonical j)) ∧
  ∀ (i : Instr) (s : State), exec (canonical i) s = exec i s ∧ cycles (canonical i) s = cycles i s

/-- The opcode map (R84 to R87): 221, 38 and 9 opcodes on the three pages, none twice; the unused opcodes of page 1 are the 33
that R87 lists, the 218 and 247 of the pages 2 and 3 are those R85 and R86 do not list, and each is refused whatever follows it,
where the machine would run it, with no state that changes. -/
def Obligations.OpcodeMap : Prop :=
  let unused1 : List Byte :=
    [0x01, 0x02, 0x05, 0x0B, 0x14, 0x15, 0x18, 0x1B, 0x38, 0x3E, 0x41, 0x42, 0x45, 0x4B, 0x4E, 0x51, 0x52, 0x55, 0x5B, 0x5E,
     0x61, 0x62, 0x65, 0x6B, 0x71, 0x72, 0x75, 0x7B, 0x87, 0x8F, 0xC7, 0xCD, 0xCF]
  ((page1Rows.length = 221 ∧ (page1Rows.map Prod.fst).Nodup) ∧ (page2Rows.length = 38 ∧ (page2Rows.map Prod.fst).Nodup) ∧
    page3Rows.length = 9 ∧ (page3Rows.map Prod.fst).Nodup) ∧
  (∀ (b : Byte) (rest : List Byte), decode (b :: rest) = .bad .illegalOpcode ↔
    b ∈ unused1 ∨ (b = 0x10 ∧ ∃ c bs, rest = c :: bs ∧ c.toNat ∉ page2Rows.map Prod.fst) ∨
      (b = 0x11 ∧ ∃ c bs, rest = c :: bs ∧ c.toNat ∉ page3Rows.map Prod.fst)) ∧
  (∀ (b : Byte) (s : State), Running s → b ∈ unused1 → CodeAt s [b] s.pc → step s = .refused .illegalOpcode) ∧
  ∀ (b : Byte) (s : State), Running s →
    (b.toNat ∉ page2Rows.map Prod.fst → CodeAt s [0x10, b] s.pc → step s = .refused .illegalOpcode) ∧
    (b.toNat ∉ page3Rows.map Prod.fst → CodeAt s [0x11, b] s.pc → step s = .refused .illegalOpcode)

/-- The 36 undefined post-bytes of R80 are refused, and no other, behind each opcode whose mode is indexed. -/
def Obligations.UndefinedPostbytesRefused : Prop :=
  let undefined : List Byte :=
    [0x87, 0xA7, 0xC7, 0xE7, 0x97, 0xB7, 0xD7, 0xF7, 0x8A, 0xAA, 0xCA, 0xEA, 0x9A, 0xBA, 0xDA, 0xFA, 0x8E, 0xAE, 0xCE, 0xEE,
     0x9E, 0xBE, 0xDE, 0xFE, 0x8F, 0xAF, 0xCF, 0xEF, 0x90, 0xB0, 0xD0, 0xF0, 0x92, 0xB2, 0xD2, 0xF2]
  (∀ (pb : Byte) (rest : List Byte), decodeIndexed (pb :: rest) = .bad .illegalPostbyte ↔ pb ∈ undefined) ∧
  ∀ (op pb : Byte) (rest : List Byte), pb ∈ undefined →
    ((∃ f, findForm op.toNat page1Rows = some (.indexed f)) ∨ (∃ f, findForm op.toNat page1Rows = some (.lea f)) →
      decode (op :: pb :: rest) = .bad .illegalPostbyte) ∧
    ((∃ f, findForm op.toNat page2Rows = some (.indexed f)) → decode (0x10 :: op :: pb :: rest) = .bad .illegalPostbyte) ∧
    ((∃ f, findForm op.toNat page3Rows = some (.indexed f)) → decode (0x11 :: op :: pb :: rest) = .bad .illegalPostbyte)

/-- The post-byte of TFR and EXG (R82): the code of R1 in the high nibble, of R2 in the low one; every pair of one width is
defined, every other post-byte is refused. -/
def Obligations.RegisterPairPostbytes : Prop :=
  (regCode .d = 0x0 ∧ regCode .x = 0x1 ∧ regCode .y = 0x2 ∧ regCode .u = 0x3 ∧ regCode .s = 0x4 ∧ regCode .pc = 0x5 ∧
    regCode .a = 0x8 ∧ regCode .b = 0x9 ∧ regCode .cc = 0xA ∧ regCode .dp = 0xB) ∧
  (∀ (r1 r2 : Reg) (rest : List Byte), regWide r1 = regWide r2 →
    decode (0x1F :: (regCode r1 ++ regCode r2) :: rest) = .ok (.tfr r1 r2) rest ∧
    decode (0x1E :: (regCode r1 ++ regCode r2) :: rest) = .ok (.exg r1 r2) rest) ∧
  ∀ (pb : Byte) (rest : List Byte), (∀ r1 r2 : Reg, pb = regCode r1 ++ regCode r2 → regWide r1 ≠ regWide r2) →
    decode (0x1F :: pb :: rest) = .bad .undefinedTransferOperand ∧
    decode (0x1E :: pb :: rest) = .bad .undefinedTransferOperand

/-- A few words, written out from the tables of 30_encoding, decode to the instructions they stand for. -/
def Obligations.DecodedWords : Prop :=
  decode [0x86, 0x7F] = .ok (.lda (.imm 0x7F)) [] ∧ decode [0xF6, 0x00, 0xA1] = .ok (.ldb (.mem (.extended 0x00A1))) [] ∧
  decode [0xA6, 0x1E] = .ok (.lda (.mem (.indexed (.off5 .x (-2))))) [] ∧
  decode [0xE6, 0xD4] = .ok (.ldb (.mem (.indexed (.noOff .u true)))) [] ∧
  decode [0x10, 0x8E, 0x03, 0xE8] = .ok (.ldy (.imm 0x03E8)) [] ∧ decode [0x1F, 0x89] = .ok (.tfr .a .b) [] ∧
  decode [0x34, 0x16] = .ok (.pshs 0x16) [] ∧ decode [0x2B, 0x1D] = .ok (.bmi 0x1D) [] ∧
  decode [0x11, 0xBC, 0x20, 0x00] = .ok (.cmps (.mem (.extended 0x2000))) [] ∧
  decode [0x10, 0x2A, 0xFF, 0xFC] = .ok (.lbpl 0xFFFC) [] ∧ decode [0x3F] = .ok .swi []

/-! ## One step -/

/-- When the bytes at PC decode to an instruction, the step is `exec` of it, in the state that the fetch leaves: PC is past the bytes
read, which are the ones that decode to the instruction. -/
def Obligations.StepRunsFetchedInstruction : Prop :=
  ∀ (s t : State) (i : Instr) (rest : List Byte), Running s → fetch s = (.ok i rest, t) →
    step s = exec i t ∧ ∃ bytes, decode bytes = .ok i rest ∧ t.pc = s.pc + BitVec.ofNat 16 bytes.length

/-- The fetch reads the bytes at ascending addresses from PC, no more than the instruction has, each advancing PC by one (10_state
R27, 30_encoding R60, R62): where RAM or ROM holds the bytes of a well-formed instruction, the step runs it with PC at the next
instruction and nothing else changed. -/
def Obligations.StepRunsCodeInMemory : Prop :=
  ∀ (s : State) (i : Instr), i.wellFormed = true → Running s → CodeAt s (encode i) s.pc →
    step s = exec (canonical i) { s with pc := s.pc + BitVec.ofNat 16 (encode i).length }

/-- A step never ends in a fault: "No instruction raises any other exception" (60_exceptions R271); it is refused exactly when the
boundary runs bytes that the decoder rejects (R87, D27) or, which no bytes decode to, a TFR or EXG of two widths. -/
def Obligations.StepRefusals : Prop :=
  ∀ s : State, (∀ f, step s ≠ .fault f) ∧
    ((∃ r, step s = .refused r) ↔ ∃ (t : State) (e : DecodeError),
      (s.inputs = [] ∧ t = s ∨ ∃ inp rest, s.inputs = inp :: rest ∧ inp.reset = false ∧ t = takeInput inp rest s) ∧
      acceptedInterrupt t = none ∧ t.wait = .none ∧ (fetch t).1 = .bad e)

/-! ## Addresses -/

/-- The effective addresses of the indexed forms without indirection, as numbers modulo 2^16 with the offsets signed, and what
they do to the state: nothing, but for auto-increment and auto-decrement (R69 to R76, R78). -/
def Obligations.IndexedAddresses : Prop :=
  ∀ (r : IdxReg) (s : State),
    let base : Int := (getIdx r s).toNat
    let next : Int := s.pc.toNat
    let computes := fun (m : Indexed) (ea : Int) (t : State) =>
      ((indexedAddress m s).1.toNat : Int) = ea % 65536 ∧ (indexedAddress m s).2 = t
    (∀ n, computes (.off5 r n) (base + n.toInt) s) ∧
    computes (.noOff r false) base s ∧
    (∀ n, computes (.off8 r n false) (base + n.toInt) s) ∧
    (∀ n, computes (.off16 r n false) (base + n.toNat) s) ∧
    computes (.accA r false) (base + s.a.toInt) s ∧
    computes (.accB r false) (base + s.b.toInt) s ∧
    computes (.accD r false) (base + (256 * s.a.toNat + s.b.toNat)) s ∧
    computes (.inc1 r) base (setIdx r (getIdx r s + 1) s) ∧
    computes (.inc2 r false) base (setIdx r (getIdx r s + 2) s) ∧
    computes (.dec1 r) (base - 1) (setIdx r (getIdx r s - 1) s) ∧
    computes (.dec2 r false) (base - 2) (setIdx r (getIdx r s - 2) s) ∧
    (∀ n, computes (.pcr8 n false) (next + n.toInt) s) ∧
    ∀ n, computes (.pcr16 n false) (next + n.toNat) s

/-- Immediate, direct and extended operands (R64, R66, R67, R100): the bytes that follow the opcode, the address, which is DP :
byte or the word and whose computation changes nothing, and the operand, which is the immediate or what is read at the address, 8
or 16 bits. -/
def Obligations.PlainOperands : Prop :=
  (∀ (f : MemOperand → Instr) (a h l : Byte) (rest : List Byte),
    decodeForm (.direct f) (a :: rest) = .ok (f (.direct a)) rest ∧
    decodeForm (.extended f) (h :: l :: rest) = .ok (f (.extended (BitVec.ofNat 16 (256 * h.toNat + l.toNat)))) rest) ∧
  ∀ s : State,
    (∀ a : Byte, effectiveAddress (.direct a) s = (BitVec.ofNat 16 (256 * s.dp.toNat + a.toNat), s)) ∧
    (∀ w : Word, effectiveAddress (.extended w) s = (w, s)) ∧
    (∀ v : Byte, operand8 (.imm v) s = (v, s)) ∧
    (∀ v : Word, operand16 (.imm v) s = (v, s)) ∧
    (∀ m : MemOperand, operand8 (.mem m) s = readByte (effectiveAddress m s).1 (effectiveAddress m s).2) ∧
    ∀ m : MemOperand, operand16 (.mem m) s = readWord (effectiveAddress m s).1 (effectiveAddress m s).2

/-- An indirect form reads the pointer, high byte first, at the address of its direct form, with that form's effect on the index
register (R77); `[n]` reads it at n (R79). Where the pointer lies in RAM or ROM nothing else changes. -/
def Obligations.IndirectAddresses : Prop :=
  (∀ (n : Word) (s : State), indexedAddress (.extInd n) s = readWord n s) ∧
  ∀ (direct indirect : Indexed) (s : State),
    ((∃ r, direct = .noOff r false ∧ indirect = .noOff r true) ∨
     (∃ r n, direct = .off8 r n false ∧ indirect = .off8 r n true) ∨
     (∃ r n, direct = .off16 r n false ∧ indirect = .off16 r n true) ∨
     (∃ r, direct = .accA r false ∧ indirect = .accA r true) ∨
     (∃ r, direct = .accB r false ∧ indirect = .accB r true) ∨
     (∃ r, direct = .accD r false ∧ indirect = .accD r true) ∨
     (∃ r, direct = .inc2 r false ∧ indirect = .inc2 r true) ∨
     (∃ r, direct = .dec2 r false ∧ indirect = .dec2 r true) ∨
     (∃ n, direct = .pcr8 n false ∧ indirect = .pcr8 n true) ∨
     (∃ n, direct = .pcr16 n false ∧ indirect = .pcr16 n true)) →
    let ea := indexedAddress direct s
    indexedAddress indirect s = readWord ea.1 ea.2 ∧
    (Plain ea.1 s → Plain (ea.1 + 1) s →
      indexedAddress indirect s = (catBytes (cellByte ea.1 s) (cellByte (ea.1 + 1) s), ea.2))

/-- Fetching an operand changes no register but the index register of an auto-increment or auto-decrement, by its step, and no memory;
the devices change, by side effects of the reads (20_memory R49) or of their own, only where a byte read, of the pointer or of the
operand, is at a device's address, and the count of free values only where one is not in RAM or ROM. R49 lets a device change its own
registers between any two byte accesses; that here it does so only just before an access at a device's address is the model's choice
(log 31), as is the count of free values (logs 6 and 7). -/
def Obligations.OperandFrame : Prop :=
  (∀ (v : Byte) (s : State), operand8 (.imm v) s = (v, s)) ∧ (∀ (v : Word) (s : State), operand16 (.imm v) s = (v, s)) ∧
  ∀ (m : MemOperand) (s : State),
    let u := operandUpdate m s
    let ea := (effectiveAddress m s).1
    let fetched := fun (reads : List Word) (t : State) =>
      (∃ pia ptm keys between draws, t = { u with pia, ptm, keys, between, draws }) ∧
      ((∀ a ∈ pointerReads m s ++ reads, deviceAt a = none) →
        t.pia = s.pia ∧ t.ptm = s.ptm ∧ t.keys = s.keys ∧ t.between = s.between) ∧
      ((∀ a ∈ pointerReads m s ++ reads, Plain a s) → t = u)
    fetched [ea] (operand8 (.mem m) s).2 ∧ fetched [ea, ea + 1] (operand16 (.mem m) s).2

/-! ## Memory -/

/-- The bus by what MEM_MAP says of an address (20_memory R42, R49, R54, R59). RAM: a load after a store to the same address sees
the stored value, and the store leaves every other byte alone. ROM and unpopulated addresses: a store changes no state. RAM and
ROM: a read answers the byte held and changes nothing. Unpopulated: a read is a free byte, drawn afresh. A device's address: the device
first does what it does of its own, the next entry of its schedule, within an instruction too, and then answers; that schedule is the
model's choice (log 31). 16-bit accesses are
big-endian and byte by byte, the byte at the lower address first, and the second byte of an access at $FFFF is at $0000 (R43 to
R45). -/
def Obligations.BusReadsAndWrites : Prop :=
  (∀ (addr : Word) (v : Byte) (s : State),
      (Ram addr s → readByte addr (writeByte addr v s) = (v, writeByte addr v s) ∧
        (∀ a, a ≠ addr → cellByte a (writeByte addr v s) = cellByte a s) ∧
        ∃ mem, writeByte addr v s = { s with mem }) ∧
      (busTarget addr s = .memory .rom ∨ busTarget addr s = .memory .unpopulated → writeByte addr v s = s) ∧
      (busTarget addr s = .memory .unpopulated → readByte addr s = (Config.freeByte s.draws, { s with draws := s.draws + 1 })) ∧
      (Plain addr s → readByte addr s = (cellByte addr s, s)) ∧
      ∀ (d : DeviceReg) (events : List DeviceEvent) (rest : List (List DeviceEvent)), deviceAt addr = some d →
        (s.between = [] → readByte addr s = readDevice d s ∧ writeByte addr v s = writeDevice d v s) ∧
        (s.between = events :: rest →
          let moved := applyEvents events { s with between := rest }
          readByte addr s = readDevice d moved ∧ writeByte addr v s = writeDevice d v moved)) ∧
  ∀ (addr v : Word) (s : State),
    (readWord addr s).1.toNat =
      256 * (readByte addr s).1.toNat + (readByte (addr + 1) (readByte addr s).2).1.toNat ∧
    (readWord addr s).2 = (readByte (addr + 1) (readByte addr s).2).2 ∧
    writeWord addr v s = writeByte (addr + 1) (v.setWidth 8) (writeByte addr ((v >>> 8).setWidth 8) s) ∧
    ((0xFFFF : Word) + 1 = 0) ∧
    (Ram addr s → Ram (addr + 1) s →
      cellByte addr (writeWord addr v s) = (v >>> 8).setWidth 8 ∧
      cellByte (addr + 1) (writeWord addr v s) = v.setWidth 8 ∧
      readWord addr (writeWord addr v s) = (v, writeWord addr v s))

/-- Which addresses are registers of a device (20_memory R50, 60_exceptions R292, R296, R303, R304). That no device answers at any
other address, mirrors among them, and that the device addresses are fixed whatever MEM_MAP says, is the model's choice (logs 5 and
7). -/
def Obligations.DeviceAddresses : Prop :=
  deviceAt 0xF000 = some (.piaData .a) ∧ deviceAt 0xF001 = some (.piaControl .a) ∧
  deviceAt 0xF002 = some (.piaData .b) ∧ deviceAt 0xF003 = some (.piaControl .b) ∧
  (∀ r : Fin 7, deviceAt (0xF010 + BitVec.ofNat 16 r.val) = some (.keyRow r)) ∧
  deviceAt 0xF018 = some .ptmControl13 ∧ deviceAt 0xF019 = some .ptmControl2 ∧
  deviceAt 0xF01A = some (.ptmMsb .t1) ∧ deviceAt 0xF01B = some (.ptmLsb .t1) ∧
  deviceAt 0xF01C = some (.ptmMsb .t2) ∧ deviceAt 0xF01D = some (.ptmLsb .t2) ∧
  deviceAt 0xF01E = some (.ptmMsb .t3) ∧ deviceAt 0xF01F = some (.ptmLsb .t3) ∧
  (∀ n : Fin 8, deviceAt (0xF020 + BitVec.ofNat 16 n.val) = some (.digit n) ∧
    deviceAt (0xF028 + BitVec.ofNat 16 n.val) = some (.digit n)) ∧
  ∀ a : Word, (a < 0xF000 ∨ (0xF003 < a ∧ a < 0xF010) ∨ a = 0xF017 ∨ 0xF02F < a) → deviceAt a = none

/-- Pushes and pulls (20_memory R46, R47): a push decrements and then writes, the low byte of a word first, so that the high byte
is at the pointer; a pull reads and then increments, and alters no memory; a pull undoes a push. -/
def Obligations.PushAndPull : Prop :=
  ∀ (p : StackPtr) (s : State),
    (∀ v : Byte, push8 p v s = writeByte (getSp p s - 1) v (setSp p (getSp p s - 1) s)) ∧
    (∀ v : Word, push16 p v s = push8 p ((v >>> 8).setWidth 8) (push8 p (v.setWidth 8) s)) ∧
    (pull8 p s).1 = (readByte (getSp p s) s).1 ∧ getSp p (pull8 p s).2 = getSp p s + 1 ∧ (pull8 p s).2.mem = s.mem ∧
    (∀ v : Word, RoomBelow 2 p s →
      getSp p (push16 p v s) = getSp p s - 2 ∧
      cellByte (getSp p s - 2) (push16 p v s) = (v >>> 8).setWidth 8 ∧
      cellByte (getSp p s - 1) (push16 p v s) = v.setWidth 8 ∧
      (∀ a, a ≠ getSp p s - 1 → a ≠ getSp p s - 2 → cellByte a (push16 p v s) = cellByte a s) ∧
      pull16 p (push16 p v s) = (v, { s with mem := (push16 p v s).mem }))

/-! ## Arithmetic -/

/-- ADCA, ADCB, ADDA, ADDB (R101, R106 to R109): forms, result and the five flags; everything else is what fetching the operand
leaves. -/
def Obligations.AddEightBits : Prop :=
  Src8Forms 0x89 0x99 0xA9 0xB9 .adca ∧ Src8Forms 0xC9 0xD9 0xE9 0xF9 .adcb ∧
  Src8Forms 0x8B 0x9B 0xAB 0xBB .adda ∧ Src8Forms 0xCB 0xDB 0xEB 0xFB .addb ∧
  ∀ (src : Src8) (s : State),
    let m := operand8 src s
    let after := fun (r : Acc) (c : Nat) =>
      let a := getAcc r s
      let sum := a.toNat + m.1.toNat + c
      let res : Byte := BitVec.ofNat 8 sum
      setAcc r res { m.2 with cc := { s.cc with
        h := decide (a.toNat % 16 + m.1.toNat % 16 + c > 15), n := res.getLsbD 7, z := decide (sum % 256 = 0)
        v := decide (a.getLsbD 7 = m.1.getLsbD 7 ∧ res.getLsbD 7 ≠ a.getLsbD 7), c := decide (sum > 255) } }
    exec (.adca src) s = .next (after .a s.cc.c.toNat) ∧ exec (.adcb src) s = .next (after .b s.cc.c.toNat) ∧
    exec (.adda src) s = .next (after .a 0) ∧ exec (.addb src) s = .next (after .b 0)

/-- SUBA, SUBB, SBCA, SBCB, CMPA, CMPB (R102, R125, R126, R190, R191, R200, R201): the difference, N, Z, V and the borrow in C; H
is the next free bit, whatever it is (UNDEF_H); the compares keep the accumulator. -/
def Obligations.SubtractEightBits : Prop :=
  Src8Forms 0x80 0x90 0xA0 0xB0 .suba ∧ Src8Forms 0xC0 0xD0 0xE0 0xF0 .subb ∧
  Src8Forms 0x82 0x92 0xA2 0xB2 .sbca ∧ Src8Forms 0xC2 0xD2 0xE2 0xF2 .sbcb ∧
  Src8Forms 0x81 0x91 0xA1 0xB1 .cmpa ∧ Src8Forms 0xC1 0xD1 0xE1 0xF1 .cmpb ∧
  ∀ (src : Src8) (s : State),
    let m := operand8 src (nextDraw s)
    let result := fun (r : Acc) (c : Nat) => BitVec.ofInt 8 ((getAcc r s).toNat - m.1.toNat - c)
    let flags := fun (r : Acc) (c : Nat) =>
      let a := getAcc r s
      let d : Int := a.toNat - m.1.toNat - c
      let res := result r c
      { m.2 with cc := { s.cc with
        h := Config.freeBit s.draws, n := res.getLsbD 7, z := decide (d % 256 = 0)
        v := decide (a.getLsbD 7 ≠ m.1.getLsbD 7 ∧ res.getLsbD 7 ≠ a.getLsbD 7), c := decide (d < 0) } }
    exec (.suba src) s = .next (setAcc .a (result .a 0) (flags .a 0)) ∧
    exec (.subb src) s = .next (setAcc .b (result .b 0) (flags .b 0)) ∧
    exec (.sbca src) s = .next (setAcc .a (result .a s.cc.c.toNat) (flags .a s.cc.c.toNat)) ∧
    exec (.sbcb src) s = .next (setAcc .b (result .b s.cc.c.toNat) (flags .b s.cc.c.toNat)) ∧
    exec (.cmpa src) s = .next (flags .a 0) ∧ exec (.cmpb src) s = .next (flags .b 0)

/-- ADDD, SUBD and the 16-bit compares (R103, R110, R127 to R131, R202): H is not affected. For the compares of index registers
the register is read after the operand's auto-increment or auto-decrement. -/
def Obligations.SixteenBitArithmetic : Prop :=
  Src16Forms [] 0xC3 0xD3 0xE3 0xF3 4 6 .addd ∧ Src16Forms [] 0x83 0x93 0xA3 0xB3 4 6 .subd ∧
  Src16Forms [0x10] 0x83 0x93 0xA3 0xB3 5 7 .cmpd ∧ Src16Forms [0x11] 0x8C 0x9C 0xAC 0xBC 5 7 .cmps ∧
  Src16Forms [0x11] 0x83 0x93 0xA3 0xB3 5 7 .cmpu ∧ Src16Forms [] 0x8C 0x9C 0xAC 0xBC 4 6 .cmpx ∧
  Src16Forms [0x10] 0x8C 0x9C 0xAC 0xBC 5 7 .cmpy ∧
  ∀ (src : Src16) (s : State),
    let m := operand16 src s
    let sum := (regD s).toNat + m.1.toNat
    let add : Word := BitVec.ofNat 16 sum
    let difference := fun (r : Word) => BitVec.ofInt 16 (r.toNat - m.1.toNat)
    let compared := fun (r : Word) =>
      let d : Int := r.toNat - m.1.toNat
      let res := difference r
      { m.2 with cc := { s.cc with
        n := res.getLsbD 15, z := decide (d % 65536 = 0)
        v := decide (r.getLsbD 15 ≠ m.1.getLsbD 15 ∧ res.getLsbD 15 ≠ r.getLsbD 15), c := decide (d < 0) } }
    exec (.addd src) s = .next (setD add { m.2 with cc := { s.cc with
      n := add.getLsbD 15, z := decide (sum % 65536 = 0)
      v := decide ((regD s).getLsbD 15 = m.1.getLsbD 15 ∧ add.getLsbD 15 ≠ (regD s).getLsbD 15), c := decide (sum > 65535) } }) ∧
    exec (.subd src) s = .next (setD (difference (regD s)) (compared (regD s))) ∧
    exec (.cmpd src) s = .next (compared (regD s)) ∧ exec (.cmps src) s = .next (compared m.2.s) ∧
    exec (.cmpu src) s = .next (compared m.2.u) ∧ exec (.cmpx src) s = .next (compared m.2.x) ∧
    exec (.cmpy src) s = .next (compared m.2.y)

/-- V says that the signed result does not fit, C that the unsigned one does not (a carry of `add8` and `add16`, a borrow of
`sub8` and `sub16`), H that bit 3 carries (10_state R25, R101 to R103): the sums and differences as numbers. -/
def Obligations.ArithmeticFlagsMean : Prop :=
  ((∀ (a m : Byte) (c : Bool) (cc : CC),
      let r := add8 a m c cc
      (r.1.toNat : Int) = (a.toNat + m.toNat + c.toNat : Int) % 256 ∧
      (r.2.v = true ↔ ¬ (-128 ≤ a.toInt + m.toInt + c.toNat ∧ a.toInt + m.toInt + c.toNat ≤ 127)) ∧
      (r.2.v = false → r.1.toInt = a.toInt + m.toInt + c.toNat) ∧
      (r.2.c = true ↔ 256 ≤ a.toNat + m.toNat + c.toNat) ∧
      (r.2.h = true ↔ 16 ≤ a.toNat % 16 + m.toNat % 16 + c.toNat) ∧
      r.2.e = cc.e ∧ r.2.f = cc.f ∧ r.2.i = cc.i) ∧
    ∀ (a m : Word) (cc : CC),
      let r := add16 a m cc
      (r.1.toNat : Int) = (a.toNat + m.toNat : Int) % 65536 ∧
      (r.2.v = true ↔ ¬ (-32768 ≤ a.toInt + m.toInt ∧ a.toInt + m.toInt ≤ 32767)) ∧
      (r.2.v = false → r.1.toInt = a.toInt + m.toInt) ∧
      (r.2.c = true ↔ 65536 ≤ a.toNat + m.toNat) ∧ r.2.h = cc.h) ∧
  (∀ (h : Bool) (a m : Byte) (c : Bool) (cc : CC),
    let r := sub8 h a m c cc
    (r.1.toNat : Int) = (a.toNat - m.toNat - c.toNat : Int) % 256 ∧
    (r.2.v = true ↔ ¬ (-128 ≤ a.toInt - m.toInt - c.toNat ∧ a.toInt - m.toInt - c.toNat ≤ 127)) ∧
    (r.2.v = false → r.1.toInt = a.toInt - m.toInt - c.toNat) ∧
    (r.2.c = true ↔ a.toNat < m.toNat + c.toNat)) ∧
  ∀ (a m : Word) (cc : CC),
    let r := sub16 a m cc
    (r.1.toNat : Int) = (a.toNat - m.toNat : Int) % 65536 ∧
    (r.2.v = true ↔ ¬ (-32768 ≤ a.toInt - m.toInt ∧ a.toInt - m.toInt ≤ 32767)) ∧
    (r.2.v = false → r.1.toInt = a.toInt - m.toInt) ∧
    (r.2.c = true ↔ a.toNat < m.toNat) ∧ r.2.h = cc.h

/-- ORA, ORB, MUL, SEX, DAA (R136, R170, R175, R176, R192): forms, results, flags; nothing else changes but what fetching the
operand of ORA and ORB leaves. -/
def Obligations.OrMultiplyExtendAndDecimalAdjust : Prop :=
  Src8Forms 0x8A 0x9A 0xAA 0xBA .ora ∧ Src8Forms 0xCA 0xDA 0xEA 0xFA .orb ∧
  InhForm [0x3D] 11 .mul ∧ InhForm [0x1D] 2 .sex ∧ InhForm [0x19] 2 .daa ∧
  ∀ s : State,
    let flags := fun (res : Byte) => ({ s.cc with n := res.getLsbD 7, z := decide (res = 0), v := false } : CC)
    let p := s.a.toNat * s.b.toNat
    let lo := s.a.toNat % 16
    let hi := s.a.toNat / 16
    let cf := (if s.cc.h = true ∨ lo > 9 then 0x06 else 0) +
      (if s.cc.c = true ∨ hi > 9 ∨ (hi > 8 ∧ lo > 9) then 0x60 else 0)
    let sum := s.a.toNat + cf
    let adjusted : Byte := BitVec.ofNat 8 sum
    (∀ src : Src8,
      let m := operand8 src s
      exec (.ora src) s = .next { m.2 with a := s.a ||| m.1, cc := flags (s.a ||| m.1) } ∧
      exec (.orb src) s = .next { m.2 with b := s.b ||| m.1, cc := flags (s.b ||| m.1) }) ∧
    exec .mul s = .next { s with
      a := BitVec.ofNat 8 (p / 256), b := BitVec.ofNat 8 p, cc := { s.cc with z := decide (p = 0), c := p.testBit 7 } } ∧
    exec .sex s = .next { s with a := if s.b.getLsbD 7 then 0xFF else 0x00, cc := flags s.b } ∧
    exec .daa s = .next { s with a := adjusted, cc := { flags adjusted with c := s.cc.c || decide (sum > 255) } }

/-- DAA after ADDA of two packed BCD bytes makes the decimal sum, with the decimal carry in C (R108, R136). -/
def Obligations.DecimalAddition : Prop :=
  ∀ (x y : Nat) (s : State), x < 100 → y < 100 →
    let bcd := fun n : Nat => BitVec.ofNat 8 (16 * (n / 10) + n % 10)
    s.a = bcd x →
    ∃ t u, exec (.adda (.imm (bcd y))) s = .next t ∧ exec .daa t = .next u ∧
      u.a = bcd ((x + y) % 100) ∧ u.cc.c = decide (100 ≤ x + y)

/-! ## Logic, single operands -/

/-- AND, EOR, BIT (R111, R112, R120, R121, R140, R141): N and Z from the result, V cleared, H and C kept. -/
def Obligations.AndExclusiveOrAndBitTest : Prop :=
  Src8Forms 0x84 0x94 0xA4 0xB4 .anda ∧ Src8Forms 0xC4 0xD4 0xE4 0xF4 .andb ∧
  Src8Forms 0x88 0x98 0xA8 0xB8 .eora ∧ Src8Forms 0xC8 0xD8 0xE8 0xF8 .eorb ∧
  Src8Forms 0x85 0x95 0xA5 0xB5 .bita ∧ Src8Forms 0xC5 0xD5 0xE5 0xF5 .bitb ∧
  ∀ (src : Src8) (s : State),
    let m := operand8 src s
    let flags := fun (res : Byte) =>
      { m.2 with cc := { s.cc with n := res.getLsbD 7, z := decide (res = 0), v := false } }
    let after := fun (r : Acc) (res : Byte) => setAcc r res (flags res)
    exec (.anda src) s = .next (after .a (s.a &&& m.1)) ∧ exec (.andb src) s = .next (after .b (s.b &&& m.1)) ∧
    exec (.eora src) s = .next (after .a (s.a ^^^ m.1)) ∧ exec (.eorb src) s = .next (after .b (s.b ^^^ m.1)) ∧
    exec (.bita src) s = .next (flags (s.a &&& m.1)) ∧ exec (.bitb src) s = .next (flags (s.b &&& m.1))

/-- ABX, NOP, ANDCC, ORCC, CLRA, CLRB, JMP (R105, R113, R122, R123, R146, R174, R177): forms, results and flags; nothing else
changes. ANDCC and ORCC act on all eight bits of CC as a byte; JMP goes to the address itself. -/
def Obligations.SimpleInstructions : Prop :=
  InhForm [0x3A] 3 .abx ∧ InhForm [0x12] 2 .nop ∧ InhForm [0x4F] 2 .clra ∧ InhForm [0x5F] 2 .clrb ∧
  MemForms [] 0x0E 0x6E 0x7E 3 .jmp ∧
  (∀ v : Byte, encode (.andcc v) = [0x1C, v] ∧ encode (.orcc v) = [0x1A, v] ∧
    ∀ s, cycles (.andcc v) s = 3 ∧ cycles (.orcc v) s = 3) ∧
  (∀ v : Byte, ccByte (ccOfByte v) = v) ∧
  (∀ cc : CC, (ccByte cc).getLsbD 7 = cc.e ∧ (ccByte cc).getLsbD 6 = cc.f ∧ (ccByte cc).getLsbD 5 = cc.h ∧
    (ccByte cc).getLsbD 4 = cc.i ∧ (ccByte cc).getLsbD 3 = cc.n ∧ (ccByte cc).getLsbD 2 = cc.z ∧
    (ccByte cc).getLsbD 1 = cc.v ∧ (ccByte cc).getLsbD 0 = cc.c) ∧
  ∀ s : State,
    let cleared : CC := { s.cc with n := false, z := true, v := false, c := false }
    exec .abx s = .next { s with x := BitVec.ofNat 16 (s.x.toNat + s.b.toNat) } ∧ exec .nop s = .next s ∧
    exec .clra s = .next { s with a := 0, cc := cleared } ∧ exec .clrb s = .next { s with b := 0, cc := cleared } ∧
    (∀ m : MemOperand, exec (.jmp m) s = .next { (effectiveAddress m s).2 with pc := (effectiveAddress m s).1 }) ∧
    ∀ v : Byte,
      exec (.andcc v) s = .next { s with cc := ccOfByte (ccByte s.cc &&& v) } ∧
      exec (.orcc v) s = .next { s with cc := ccOfByte (ccByte s.cc ||| v) }

/-- The single-operand operations on A and B (R132, R133, R137, R138, R143, R144, R171, R172, R208, R209): forms, results and
flags; H of NEG is the next free bit. -/
def Obligations.AccumulatorOperations : Prop :=
  (InhForm [0x40] 2 .nega ∧ InhForm [0x50] 2 .negb ∧ InhForm [0x43] 2 .coma ∧ InhForm [0x53] 2 .comb ∧
   InhForm [0x4A] 2 .deca ∧ InhForm [0x5A] 2 .decb ∧ InhForm [0x4C] 2 .inca ∧ InhForm [0x5C] 2 .incb ∧
   InhForm [0x4D] 2 .tsta ∧ InhForm [0x5D] 2 .tstb) ∧
  ∀ (r : Acc) (s : State),
    let m := getAcc r s
    let pick := fun (ia ib : Instr) => match r with | .a => ia | .b => ib
    let after := fun (res : Byte) (cc : CC) => setAcc r res { s with cc := { cc with n := res.getLsbD 7, z := decide (res = 0) } }
    exec (pick .nega .negb) s = .next (nextDraw (after (BitVec.ofInt 8 (-m.toNat)) { s.cc with
      h := Config.freeBit s.draws, v := decide (m = 0x80), c := decide (m ≠ 0) })) ∧
    exec (pick .coma .comb) s = .next (after (~~~m) { s.cc with v := false, c := true }) ∧
    exec (pick .deca .decb) s = .next (after (BitVec.ofInt 8 (m.toNat - 1)) { s.cc with v := decide (m = 0x80) }) ∧
    exec (pick .inca .incb) s = .next (after (BitVec.ofNat 8 (m.toNat + 1)) { s.cc with v := decide (m = 0x7F) }) ∧
    exec (pick .tsta .tstb) s = .next (after m { s.cc with v := false })

/-- The shifts and rotates of A and B (R114, R115, R117, R118, R164, R165, R167, R168, R182, R183, R185, R186): forms, results and
flags; H of ASL, LSL and ASR is the next free bit. -/
def Obligations.AccumulatorShifts : Prop :=
  (InhForm [0x48] 2 .asla ∧ InhForm [0x58] 2 .aslb ∧ InhForm [0x48] 2 .lsla ∧ InhForm [0x58] 2 .lslb ∧
   InhForm [0x47] 2 .asra ∧ InhForm [0x57] 2 .asrb ∧ InhForm [0x44] 2 .lsra ∧ InhForm [0x54] 2 .lsrb ∧
   InhForm [0x49] 2 .rola ∧ InhForm [0x59] 2 .rolb ∧ InhForm [0x46] 2 .rora ∧ InhForm [0x56] 2 .rorb) ∧
  ∀ (r : Acc) (s : State),
    let m := getAcc r s
    let c := s.cc.c.toNat
    let pick := fun (ia ib : Instr) => match r with | .a => ia | .b => ib
    let after := fun (res : Byte) (cc : CC) => setAcc r res { s with cc := { cc with n := res.getLsbD 7, z := decide (res = 0) } }
    let left : CC := { s.cc with v := m.getLsbD 7 ^^ m.getLsbD 6, c := m.getLsbD 7 }
    let right : CC := { s.cc with c := m.getLsbD 0 }
    let undefH := fun (cc : CC) => { cc with h := Config.freeBit s.draws }
    exec (pick .asla .aslb) s = .next (nextDraw (after (BitVec.ofNat 8 (2 * m.toNat)) (undefH left))) ∧
    exec (pick .lsla .lslb) s = exec (pick .asla .aslb) s ∧
    exec (pick .asra .asrb) s = .next (nextDraw (after (BitVec.ofInt 8 (m.toInt / 2)) (undefH right))) ∧
    exec (pick .lsra .lsrb) s = .next (after (BitVec.ofNat 8 (m.toNat / 2)) right) ∧
    exec (pick .rola .rolb) s = .next (after (BitVec.ofNat 8 (2 * m.toNat + c)) left) ∧
    exec (pick .rora .rorb) s = .next (after (BitVec.ofNat 8 (m.toNat / 2 + 128 * c)) right)

/-- The same operations on a byte of memory (R104, R124, R134, R139, R145, R173, R210, R337): one read, then, but for TST, one
write at the same address; CLR reads too. -/
def Obligations.MemoryOperations : Prop :=
  MemForms [] 0x00 0x60 0x70 6 .neg ∧ MemForms [] 0x03 0x63 0x73 6 .com ∧ MemForms [] 0x0A 0x6A 0x7A 6 .dec ∧
  MemForms [] 0x0C 0x6C 0x7C 6 .inc ∧ MemForms [] 0x0D 0x6D 0x7D 6 .tst ∧ MemForms [] 0x0F 0x6F 0x7F 6 .clr ∧
  ∀ (m : MemOperand) (s : State),
    let read := fun (st : State) => readByte (effectiveAddress m st).1 (effectiveAddress m st).2
    let flags := fun (st : State) (res : Byte) (cc : CC) =>
      { (read st).2 with cc := { cc with n := res.getLsbD 7, z := decide (res = 0) } }
    let after := fun (st : State) (res : Byte) (cc : CC) => writeByte (effectiveAddress m st).1 res (flags st res cc)
    let v := (read s).1
    let v' := (read (nextDraw s)).1
    exec (.neg m) s = .next (after (nextDraw s) (BitVec.ofInt 8 (-v'.toNat)) { s.cc with
      h := Config.freeBit s.draws, v := decide (v' = 0x80), c := decide (v' ≠ 0) }) ∧
    exec (.com m) s = .next (after s (~~~v) { s.cc with v := false, c := true }) ∧
    exec (.dec m) s = .next (after s (BitVec.ofInt 8 (v.toNat - 1)) { s.cc with v := decide (v = 0x80) }) ∧
    exec (.inc m) s = .next (after s (BitVec.ofNat 8 (v.toNat + 1)) { s.cc with v := decide (v = 0x7F) }) ∧
    exec (.tst m) s = .next (flags s v { s.cc with v := false }) ∧
    exec (.clr m) s = .next (after s 0 { s.cc with v := false, c := false })

/-- The shifts and rotates of a byte of memory (R104, R116, R119, R166, R169, R184, R187). -/
def Obligations.MemoryShifts : Prop :=
  MemForms [] 0x08 0x68 0x78 6 .asl ∧ MemForms [] 0x08 0x68 0x78 6 .lsl ∧ MemForms [] 0x07 0x67 0x77 6 .asr ∧
  MemForms [] 0x04 0x64 0x74 6 .lsr ∧ MemForms [] 0x09 0x69 0x79 6 .rol ∧ MemForms [] 0x06 0x66 0x76 6 .ror ∧
  ∀ (m : MemOperand) (s : State),
    let read := fun (st : State) => readByte (effectiveAddress m st).1 (effectiveAddress m st).2
    let after := fun (st : State) (res : Byte) (cc : CC) => writeByte (effectiveAddress m st).1 res
      { (read st).2 with cc := { cc with n := res.getLsbD 7, z := decide (res = 0) } }
    let v := (read s).1
    let v' := (read (nextDraw s)).1
    let left := fun (w : Byte) (h : Bool) => { s.cc with h, v := w.getLsbD 7 ^^ w.getLsbD 6, c := w.getLsbD 7 }
    let right := fun (w : Byte) (h : Bool) => { s.cc with h, c := w.getLsbD 0 }
    let free := Config.freeBit s.draws
    exec (.asl m) s = .next (after (nextDraw s) (BitVec.ofNat 8 (2 * v'.toNat)) (left v' free)) ∧
    exec (.lsl m) s = exec (.asl m) s ∧
    exec (.asr m) s = .next (after (nextDraw s) (BitVec.ofInt 8 (v'.toInt / 2)) (right v' free)) ∧
    exec (.lsr m) s = .next (after s (BitVec.ofNat 8 (v.toNat / 2)) (right v s.cc.h)) ∧
    exec (.rol m) s = .next (after s (BitVec.ofNat 8 (2 * v.toNat + s.cc.c.toNat)) (left v s.cc.h)) ∧
    exec (.ror m) s = .next (after s (BitVec.ofNat 8 (v.toNat / 2 + 128 * s.cc.c.toNat)) (right v s.cc.h))

/-! ## Loads, stores, addresses, transfers -/

/-- LDA, LDB, LDD, LDS, LDU, LDX, LDY (R148 to R154): the operand, N and Z from it, V cleared, H and C kept. Whether LDS arms NMI
is said in `StatusFrame`. -/
def Obligations.Loads : Prop :=
  Src8Forms 0x86 0x96 0xA6 0xB6 .lda ∧ Src8Forms 0xC6 0xD6 0xE6 0xF6 .ldb ∧
  Src16Forms [] 0xCC 0xDC 0xEC 0xFC 3 5 .ldd ∧ Src16Forms [0x10] 0xCE 0xDE 0xEE 0xFE 4 6 .lds ∧
  Src16Forms [] 0xCE 0xDE 0xEE 0xFE 3 5 .ldu ∧ Src16Forms [] 0x8E 0x9E 0xAE 0xBE 3 5 .ldx ∧
  Src16Forms [0x10] 0x8E 0x9E 0xAE 0xBE 4 6 .ldy ∧
  (∀ (src : Src8) (s : State),
    let m := operand8 src s
    let cc : CC := { s.cc with n := m.1.getLsbD 7, z := decide (m.1 = 0), v := false }
    exec (.lda src) s = .next { m.2 with a := m.1, cc } ∧ exec (.ldb src) s = .next { m.2 with b := m.1, cc }) ∧
  ∀ (src : Src16) (s : State),
    let m := operand16 src s
    let cc : CC := { s.cc with n := m.1.getLsbD 15, z := decide (m.1 = 0), v := false }
    exec (.ldd src) s = .next { m.2 with a := (m.1 >>> 8).setWidth 8, b := m.1.setWidth 8, cc } ∧
    (∃ nmiArmed, exec (.lds src) s = .next { m.2 with s := m.1, nmiArmed, cc }) ∧
    exec (.ldu src) s = .next { m.2 with u := m.1, cc } ∧ exec (.ldx src) s = .next { m.2 with x := m.1, cc } ∧
    exec (.ldy src) s = .next { m.2 with y := m.1, cc }

/-- STA, STB, STD, STS, STU, STX, STY (R193 to R199): the register as it is after the address is computed is stored there, N and Z
from it, V cleared, H and C kept; nothing is read at the address. -/
def Obligations.Stores : Prop :=
  MemForms [] 0x97 0xA7 0xB7 4 .sta ∧ MemForms [] 0xD7 0xE7 0xF7 4 .stb ∧ MemForms [] 0xDD 0xED 0xFD 5 .std ∧
  MemForms [0x10] 0xDF 0xEF 0xFF 6 .sts ∧ MemForms [] 0xDF 0xEF 0xFF 5 .stu ∧ MemForms [] 0x9F 0xAF 0xBF 5 .stx ∧
  MemForms [0x10] 0x9F 0xAF 0xBF 6 .sty ∧
  ∀ (m : MemOperand) (s : State),
    let ea := effectiveAddress m s
    let byte := fun (v : Byte) => writeByte ea.1 v { ea.2 with cc := { s.cc with
      n := v.getLsbD 7, z := decide (v = 0), v := false } }
    let word := fun (v : Word) => writeWord ea.1 v { ea.2 with cc := { s.cc with
      n := v.getLsbD 15, z := decide (v = 0), v := false } }
    exec (.sta m) s = .next (byte s.a) ∧ exec (.stb m) s = .next (byte s.b) ∧
    exec (.std m) s = .next (word (BitVec.ofNat 16 (256 * s.a.toNat + s.b.toNat))) ∧
    exec (.sts m) s = .next (word ea.2.s) ∧ exec (.stu m) s = .next (word ea.2.u) ∧
    exec (.stx m) s = .next (word ea.2.x) ∧ exec (.sty m) s = .next (word ea.2.y)

/-- LEAX, LEAY, LEAS, LEAU (R160 to R163): the address itself, written after the address computation's own update; Z for X and Y
only; LEAS arms NMI. -/
def Obligations.LoadEffectiveAddress : Prop :=
  (∀ m : Indexed, encode (.leax m) = 0x30 :: encodeIndexed m ∧ encode (.leay m) = 0x31 :: encodeIndexed m ∧
    encode (.leas m) = 0x32 :: encodeIndexed m ∧ encode (.leau m) = 0x33 :: encodeIndexed m ∧
    ∀ s i, i ∈ [Instr.leax m, .leay m, .leas m, .leau m] → cycles i s = 4 + indexedCycles m) ∧
  ∀ (m : Indexed) (s : State),
    let ea := indexedAddress m s
    let cc : CC := { s.cc with z := decide (ea.1 = 0) }
    exec (.leax m) s = .next { ea.2 with x := ea.1, cc } ∧ exec (.leay m) s = .next { ea.2 with y := ea.1, cc } ∧
    exec (.leas m) s = .next { ea.2 with s := ea.1, nmiArmed := true } ∧ exec (.leau m) s = .next { ea.2 with u := ea.1 }

/-- TFR and EXG of two registers of one width (R82, R142, R207): the destination reads what the source held, EXG's first register
what the second held, every other register keeps its value, and nothing but registers changes; S as a destination arms NMI, that of
`EXG S,S` too, by the model's choice (log 34); of two
widths, which no bytes encode, they are refused. -/
def Obligations.RegisterTransfers : Prop :=
  (∀ r1 r2 s, encode (.tfr r1 r2) = [0x1F, regCode r1 ++ regCode r2] ∧ cycles (.tfr r1 r2) s = 6 ∧
    encode (.exg r1 r2) = [0x1E, regCode r1 ++ regCode r2] ∧ cycles (.exg r1 r2) s = 8) ∧
  ∀ (r1 r2 : Reg) (s : State),
    let onlyRegisters := fun (t : State) (armed : Bool) => ∃ a b x y u sp pc dp cc,
      t = { s with a, b, x, y, u, s := sp, pc, dp, cc, nmiArmed := s.nmiArmed || armed }
    (regWide r1 = regWide r2 →
      (∃ t, exec (.tfr r1 r2) s = .next t ∧ getReg r2 t = getReg r1 s ∧
        (∀ r, r ≠ r2 → (r2 = .d → r ≠ .a ∧ r ≠ .b) → (r2 = .a ∨ r2 = .b → r ≠ .d) → getReg r t = getReg r s) ∧
        onlyRegisters t (r2 == .s)) ∧
      ∃ t, exec (.exg r1 r2) s = .next t ∧ getReg r2 t = getReg r1 s ∧ getReg r1 t = getReg r2 s ∧
        (∀ r, r ≠ r1 → r ≠ r2 → (r1 = .d ∨ r2 = .d → r ≠ .a ∧ r ≠ .b) →
          (r1 = .a ∨ r2 = .a ∨ r1 = .b ∨ r2 = .b → r ≠ .d) → getReg r t = getReg r s) ∧
        onlyRegisters t (r1 == .s || r2 == .s)) ∧
    (regWide r1 ≠ regWide r2 →
      exec (.tfr r1 r2) s = .refused .undefinedTransferOperand ∧ exec (.exg r1 r2) s = .refused .undefinedTransferOperand)

/-! ## Jumps and branches -/

/-- JSR, BSR, LBSR, RTS (R147, R189, R255, R256): where control goes; the return address is pushed on the S stack after the target
is computed, and pulled by RTS. With two bytes of RAM below S, RTS resumes after the call, with S as it was when the address was
pushed, in every later state with the S the call left in which the two bytes of the return address are unchanged. -/
def Obligations.CallsAndReturn : Prop :=
  MemForms [] 0x9D 0xAD 0xBD 7 .jsr ∧ InhForm [0x39] 5 .rts ∧
  (∀ off s, encode (.bsr off) = [0x8D, off] ∧ cycles (.bsr off) s = 7) ∧
  (∀ off s, encode (.lbsr off) = [0x17, hiByte off, loByte off] ∧ cycles (.lbsr off) s = 9) ∧
  ∀ s : State,
    (∀ m : MemOperand,
      let ea := effectiveAddress m s
      exec (.jsr m) s = .next { push16 .s s.pc ea.2 with pc := ea.1 }) ∧
    (∀ off : Byte, exec (.bsr off) s =
      .next { push16 .s s.pc s with pc := BitVec.ofInt 16 (s.pc.toNat + off.toInt) }) ∧
    (∀ off : Word, exec (.lbsr off) s = .next { push16 .s s.pc s with pc := s.pc + off }) ∧
    exec .rts s = .next { (pull16 .s s).2 with pc := (pull16 .s s).1 } ∧
    ∀ (i : Instr) (called t u : State),
      (∃ m, i = .jsr m ∧ called = (effectiveAddress m s).2) ∨ (∃ off, i = .bsr off ∧ called = s) ∨
        (∃ off, i = .lbsr off ∧ called = s) →
      RoomBelow 2 .s called → exec i s = .next t → u.s = t.s → Plain u.s u → Plain (u.s + 1) u →
      cellByte u.s u = cellByte u.s t → cellByte (u.s + 1) u = cellByte (u.s + 1) t →
      exec .rts u = .next { u with pc := s.pc, s := called.s }

/-- The branches, short and long (R220 to R222, with the forms and cycles of the short ones and LBRA): PC plus the signed offset
where the condition of the table holds, else the next instruction; nothing else changes. -/
def Obligations.Branches : Prop :=
  ((∀ p ∈ [(Instr.bra, 0x20), (.brn, 0x21), (.bhi, 0x22), (.bls, 0x23), (.bcc, 0x24), (.bhs, 0x24), (.bcs, 0x25), (.blo, 0x25),
      (.bne, 0x26), (.beq, 0x27), (.bvc, 0x28), (.bvs, 0x29), (.bpl, 0x2A), (.bmi, 0x2B), (.bge, 0x2C), (.blt, 0x2D),
      (.bgt, 0x2E), (.ble, 0x2F)],
    ∀ off s, encode (p.1 off) = [p.2, off] ∧ cycles (p.1 off) s = 3) ∧
   ∀ off s, encode (.lbra off) = [0x16, hiByte off, loByte off] ∧ cycles (.lbra off) s = 5) ∧
  (∀ (off : Byte) (s : State),
      let taken : State := { s with pc := BitVec.ofInt 16 (s.pc.toNat + off.toInt) }
      let branch := fun (c : Prop) [Decidable c] => if c then taken else s
      let n := s.cc.n
      let z := s.cc.z
      let v := s.cc.v
      let c := s.cc.c
      exec (.bra off) s = .next taken ∧ exec (.brn off) s = .next s ∧
      exec (.bhi off) s = .next (branch (c = false ∧ z = false)) ∧ exec (.bls off) s = .next (branch (c = true ∨ z = true)) ∧
      exec (.bcc off) s = .next (branch (c = false)) ∧ exec (.bhs off) s = .next (branch (c = false)) ∧
      exec (.bcs off) s = .next (branch (c = true)) ∧ exec (.blo off) s = .next (branch (c = true)) ∧
      exec (.bne off) s = .next (branch (z = false)) ∧ exec (.beq off) s = .next (branch (z = true)) ∧
      exec (.bvc off) s = .next (branch (v = false)) ∧ exec (.bvs off) s = .next (branch (v = true)) ∧
      exec (.bpl off) s = .next (branch (n = false)) ∧ exec (.bmi off) s = .next (branch (n = true)) ∧
      exec (.bge off) s = .next (branch (n = v)) ∧ exec (.blt off) s = .next (branch (n ≠ v)) ∧
      exec (.bgt off) s = .next (branch (z = false ∧ n = v)) ∧ exec (.ble off) s = .next (branch (z = true ∨ n ≠ v))) ∧
  ∀ (off : Word) (s : State),
    let taken : State := { s with pc := BitVec.ofNat 16 (s.pc.toNat + off.toNat) }
    let branch := fun (c : Prop) [Decidable c] => if c then taken else s
    let n := s.cc.n
    let z := s.cc.z
    let v := s.cc.v
    let c := s.cc.c
    exec (.lbra off) s = .next taken ∧ exec (.lbrn off) s = .next s ∧
    exec (.lbhi off) s = .next (branch (c = false ∧ z = false)) ∧ exec (.lbls off) s = .next (branch (c = true ∨ z = true)) ∧
    exec (.lbcc off) s = .next (branch (c = false)) ∧ exec (.lbhs off) s = .next (branch (c = false)) ∧
    exec (.lbcs off) s = .next (branch (c = true)) ∧ exec (.lblo off) s = .next (branch (c = true)) ∧
    exec (.lbne off) s = .next (branch (z = false)) ∧ exec (.lbeq off) s = .next (branch (z = true)) ∧
    exec (.lbvc off) s = .next (branch (v = false)) ∧ exec (.lbvs off) s = .next (branch (v = true)) ∧
    exec (.lbpl off) s = .next (branch (n = false)) ∧ exec (.lbmi off) s = .next (branch (n = true)) ∧
    exec (.lbge off) s = .next (branch (n = v)) ∧ exec (.lblt off) s = .next (branch (n ≠ v)) ∧
    exec (.lbgt off) s = .next (branch (z = false ∧ n = v)) ∧ exec (.lble off) s = .next (branch (z = true ∨ n ≠ v))

/-- The pages 2 and 3 (R85, R86): their opcodes, the bytes and the cycles of every row, the long conditional branches 5 if not taken
and 6 if taken. There is no `10 20`: LBRA and LBSR are the page-1 opcodes `16` and `17`. -/
def Obligations.PageTwoAndThreeRows : Prop :=
  page2Rows.map Prod.fst =
    [0x21, 0x22, 0x23, 0x24, 0x25, 0x26, 0x27, 0x28, 0x29, 0x2A, 0x2B, 0x2C, 0x2D, 0x2E, 0x2F, 0x3F, 0x83, 0x8C, 0x8E, 0x93, 0x9C,
     0x9E, 0x9F, 0xA3, 0xAC, 0xAE, 0xAF, 0xB3, 0xBC, 0xBE, 0xBF, 0xCE, 0xDE, 0xDF, 0xEE, 0xEF, 0xFE, 0xFF] ∧
  page3Rows.map Prod.fst = [0x3F, 0x83, 0x8C, 0x93, 0x9C, 0xA3, 0xAC, 0xB3, 0xBC] ∧
  page2Rows.length = 38 ∧ page3Rows.length = 9 ∧
  (∀ rest, decode (0x10 :: 0x20 :: rest) = .bad .illegalOpcode) ∧
  (∀ off : Word, encode (.lbra off) = [0x16, hiByte off, loByte off] ∧ encode (.lbsr off) = [0x17, hiByte off, loByte off]) ∧
  (∀ (off : Word) (s : State), encode (.lbrn off) = [0x10, 0x21, hiByte off, loByte off] ∧ cycles (.lbrn off) s = 5) ∧
  (∀ p ∈ [(Instr.lbhi, 0x22, Cond.hi), (.lbls, 0x23, .ls), (.lbcc, 0x24, .cc), (.lbhs, 0x24, .cc), (.lbcs, 0x25, .cs),
      (.lblo, 0x25, .cs), (.lbne, 0x26, .ne), (.lbeq, 0x27, .eq), (.lbvc, 0x28, .vc), (.lbvs, 0x29, .vs), (.lbpl, 0x2A, .pl),
      (.lbmi, 0x2B, .mi), (.lbge, 0x2C, .ge), (.lblt, 0x2D, .lt), (.lbgt, 0x2E, .gt), (.lble, 0x2F, .le)],
    ∀ (off : Word) (s : State), encode (p.1 off) = [0x10, p.2.1, hiByte off, loByte off] ∧
      cycles (p.1 off) s = if holds p.2.2 s.cc then 6 else 5) ∧
  InhForm [0x10, 0x3F] 20 .swi2 ∧ InhForm [0x11, 0x3F] 20 .swi3 ∧
  Src16Forms [0x10] 0x83 0x93 0xA3 0xB3 5 7 .cmpd ∧ Src16Forms [0x10] 0x8C 0x9C 0xAC 0xBC 5 7 .cmpy ∧
  Src16Forms [0x10] 0x8E 0x9E 0xAE 0xBE 4 6 .ldy ∧ MemForms [0x10] 0x9F 0xAF 0xBF 6 .sty ∧
  Src16Forms [0x10] 0xCE 0xDE 0xEE 0xFE 4 6 .lds ∧ MemForms [0x10] 0xDF 0xEF 0xFF 6 .sts ∧
  Src16Forms [0x11] 0x83 0x93 0xA3 0xB3 5 7 .cmpu ∧ Src16Forms [0x11] 0x8C 0x9C 0xAC 0xBC 5 7 .cmps

/-- What a branch means after a compare (R222): after CMPA, CMPB or a 16-bit compare of R with M, each condition holds exactly
when the relation of its row holds, unsigned or signed. -/
def Obligations.BranchesAfterCompare : Prop :=
  let meaning := fun (cc : CC) (ru mu rs ms : Int) =>
    (holds .hi cc = true ↔ mu < ru) ∧ (holds .ls cc = true ↔ ru ≤ mu) ∧ (holds .cc cc = true ↔ mu ≤ ru) ∧
    (holds .cs cc = true ↔ ru < mu) ∧ (holds .ne cc = true ↔ ru ≠ mu) ∧ (holds .eq cc = true ↔ ru = mu) ∧
    (holds .ge cc = true ↔ ms ≤ rs) ∧ (holds .lt cc = true ↔ rs < ms) ∧ (holds .gt cc = true ↔ ms < rs) ∧
    (holds .le cc = true ↔ rs ≤ ms)
  (∀ (src : Src8) (s : State),
    let m := (operand8 src (nextDraw s)).1
    (∃ t, exec (.cmpa src) s = .next t ∧ meaning t.cc s.a.toNat m.toNat s.a.toInt m.toInt) ∧
    ∃ t, exec (.cmpb src) s = .next t ∧ meaning t.cc s.b.toNat m.toNat s.b.toInt m.toInt) ∧
  ∀ (src : Src16) (s : State),
    let m := operand16 src s
    (∃ t, exec (.cmpd src) s = .next t ∧ meaning t.cc (regD s).toNat m.1.toNat (regD s).toInt m.1.toInt) ∧
    (∃ t, exec (.cmpx src) s = .next t ∧ meaning t.cc m.2.x.toNat m.1.toNat m.2.x.toInt m.1.toInt) ∧
    (∃ t, exec (.cmpy src) s = .next t ∧ meaning t.cc m.2.y.toNat m.1.toNat m.2.y.toInt m.1.toInt) ∧
    (∃ t, exec (.cmpu src) s = .next t ∧ meaning t.cc m.2.u.toNat m.1.toNat m.2.u.toInt m.1.toInt) ∧
    ∃ t, exec (.cmps src) s = .next t ∧ meaning t.cc m.2.s.toNat m.1.toNat m.2.s.toInt m.1.toInt

/-! ## Register lists -/

/-- PSHS and PSHU onto a RAM stack (R46, R83, R178, R179): the pointer moves down by the number of bytes listed; from it upward
lie the listed registers in the order CC, A, B, DP, X, Y, U or S, PC, words high byte first; all else is unchanged. Each form
completes for every list and state. -/
def Obligations.PushRegisterList : Prop :=
  ∀ (p : StackPtr) (list : Byte) (s : State),
    let i := match p with | .s => Instr.pshs list | .u => Instr.pshu list
    let n := listBytes list
    ∃ t, exec i s = .next t ∧ getSp p t = getSp p s - BitVec.ofNat 16 n ∧ cycles i s = 5 + n ∧
      (RoomBelow 12 p s →
        let byteAt := fun (k : Nat) => cellByte (getSp p t + BitVec.ofNat 16 (listBytes (list &&& BitVec.ofNat 8 (2 ^ k - 1)))) t
        let wordAt := fun (k : Nat) => cellWord (getSp p t + BitVec.ofNat 16 (listBytes (list &&& BitVec.ofNat 8 (2 ^ k - 1)))) t
        t = { setSp p (getSp p t) s with mem := t.mem } ∧
        (∀ a, (∀ k, 1 ≤ k → k ≤ n → a ≠ getSp p s - BitVec.ofNat 16 k) → cellByte a t = cellByte a s) ∧
        (list.getLsbD 0 = true → byteAt 0 = ccByte s.cc) ∧ (list.getLsbD 1 = true → byteAt 1 = s.a) ∧
        (list.getLsbD 2 = true → byteAt 2 = s.b) ∧ (list.getLsbD 3 = true → byteAt 3 = s.dp) ∧
        (list.getLsbD 4 = true → wordAt 4 = s.x) ∧ (list.getLsbD 5 = true → wordAt 5 = s.y) ∧
        (list.getLsbD 6 = true → wordAt 6 = (match p with | .s => s.u | .u => s.s)) ∧
        (list.getLsbD 7 = true → wordAt 7 = s.pc))

/-- PULS and PULU (R47, R83, R180, R181): the listed registers are pulled from bit 0 up to bit 7, bytes and words as R47 says, S
pulled by PULU arms NMI; with a stack in RAM or ROM, a register that is not listed keeps its value and memory is unchanged. -/
def Obligations.PullRegisterList : Prop :=
  ∀ (p : StackPtr) (list : Byte) (s : State),
    let i := match p with | .s => Instr.puls list | .u => Instr.pulu list
    let n := listBytes list
    ∃ t, exec i s = .next t ∧ getSp p t = getSp p s + BitVec.ofNat 16 n ∧ cycles i s = 5 + n ∧
      (PlainAbove 12 p s →
        let byteAt := fun (k : Nat) => cellByte (getSp p s + BitVec.ofNat 16 (listBytes (list &&& BitVec.ofNat 8 (2 ^ k - 1)))) s
        let wordAt := fun (k : Nat) => cellWord (getSp p s + BitVec.ofNat 16 (listBytes (list &&& BitVec.ofNat 8 (2 ^ k - 1)))) s
        let other := if list.getLsbD 6 then wordAt 6 else match p with | .s => s.u | .u => s.s
        t = { s with
          cc := if list.getLsbD 0 then ccOfByte (byteAt 0) else s.cc
          a := if list.getLsbD 1 then byteAt 1 else s.a
          b := if list.getLsbD 2 then byteAt 2 else s.b
          dp := if list.getLsbD 3 then byteAt 3 else s.dp
          x := if list.getLsbD 4 then wordAt 4 else s.x
          y := if list.getLsbD 5 then wordAt 5 else s.y
          u := match p with | .s => other | .u => getSp p t
          s := match p with | .s => getSp p t | .u => other
          nmiArmed := match p with | .s => s.nmiArmed | .u => s.nmiArmed || list.getLsbD 6
          pc := if list.getLsbD 7 then wordAt 7 else s.pc })

/-- "`PULS` with the same post-byte undoes `PSHS`" (R180), and PULU undoes PSHU, whatever the list: with twelve bytes of RAM below
the pointer, every register is as before, and only the bytes below the pointer may have changed. -/
def Obligations.PullUndoesPush : Prop :=
  ∀ (p : StackPtr) (list : Byte) (s : State), RoomBelow 12 p s →
    let push := match p with | .s => Instr.pshs list | .u => Instr.pshu list
    let pull := match p with | .s => Instr.puls list | .u => Instr.pulu list
    ∃ t u, exec push s = .next t ∧ exec pull t = .next u ∧
      u = { s with mem := t.mem, nmiArmed := match p with | .s => s.nmiArmed | .u => s.nmiArmed || list.getLsbD 6 } ∧
      ∀ a, (∀ k, 1 ≤ k → k ≤ 12 → a ≠ getSp p s - BitVec.ofNat 16 k) → cellByte a u = cellByte a s

/-! ## Interrupts -/

/-- The vector table (R274): each kind loads PC from its own two fixed addresses, the high byte from the lower one. -/
def Obligations.VectorTable : Prop :=
  vectorOf .swi3 = 0xFFF2 ∧ vectorOf .swi2 = 0xFFF4 ∧ vectorOf .firq = 0xFFF6 ∧ vectorOf .irq = 0xFFF8 ∧
  vectorOf .swi = 0xFFFA ∧ vectorOf .nmi = 0xFFFC ∧ resetVector = 0xFFFE ∧
  (∀ (k : Interrupt) (s : State),
    let t := enterHandler k (stackFor k s)
    raiseInterrupt k s = { (readWord (vectorOf k) t).2 with pc := (readWord (vectorOf k) t).1 }) ∧
  (∀ s : State,
    let t := resetFields s
    resetEntry s = { (readWord 0xFFFE t).2 with pc := (readWord 0xFFFE t).1 }) ∧
  ∀ (a : Word) (s : State), Plain a s → Plain (a + 1) s →
    (readWord a s).1 = BitVec.ofNat 16 (256 * (cellByte a s).toNat + (cellByte (a + 1) s).toNat)

/-- Taking an interrupt other than out of CWAI, onto a RAM stack (R274 to R282, R287): the frame as laid out, the masks after
stacking, the pending NMI edge cleared by the NMI entry only, PC from the vector; no other register or hidden state changes. -/
def Obligations.InterruptEntry : Prop :=
  ∀ (k : Interrupt) (s : State), s.wait ≠ .cwai → RoomBelow 12 .s s → Plain (vectorOf k) s → Plain (vectorOf k + 1) s →
    let t := raiseInterrupt k s
    let size : Nat := if k = .firq then 3 else 12
    let stacked : CC := { s.cc with e := decide (k ≠ .firq) }
    let sp := s.s - BitVec.ofNat 16 size
    let byteAt := fun (n : Nat) => cellByte (sp + BitVec.ofNat 16 n) t
    let word := fun (n : Nat) => cellWord (sp + BitVec.ofNat 16 n) t
    t = { s with
      s := sp, wait := .none, mem := t.mem, pc := cellWord (vectorOf k) t
      nmiPending := if k = .nmi then false else s.nmiPending
      cc := { stacked with
        i := s.cc.i || decide (k ≠ .swi2 ∧ k ≠ .swi3), f := s.cc.f || decide (k = .nmi ∨ k = .firq ∨ k = .swi) } } ∧
    byteAt 0 = ccByte stacked ∧
    (if k = .firq then word 1 = s.pc
     else byteAt 1 = s.a ∧ byteAt 2 = s.b ∧ byteAt 3 = s.dp ∧ word 4 = s.x ∧ word 6 = s.y ∧ word 8 = s.u ∧ word 10 = s.pc) ∧
    ∀ a, (∀ n, n < size → a ≠ sp + BitVec.ofNat 16 n) → cellByte a t = cellByte a s

/-- What a boundary does with the inputs (R272, R275): NMI if pending and armed, else FIRQ if active and F = 0, else IRQ if active
and I = 0, each taken in a step of its own; with none of them and no wait, the instruction at PC. -/
def Obligations.BoundaryPriority : Prop :=
  ∀ s : State, s.inputs = [] →
    let nmi := s.nmiPending = true ∧ s.nmiArmed = true
    let firq := s.firqLine = true ∧ s.cc.f = false
    let irq := s.irqLine = true ∧ s.cc.i = false
    (nmi → step s = .next (raiseInterrupt .nmi s)) ∧
    (¬ nmi → firq → step s = .next (raiseInterrupt .firq s)) ∧
    (¬ nmi → ¬ firq → irq → step s = .next (raiseInterrupt .irq s)) ∧
    (¬ nmi → ¬ firq → ¬ irq → s.wait = .none → ∀ i t rest, fetch s = (.ok i rest, t) → step s = exec i t)

/-- The boundary's input (R272, R273, D16, D24): the lines take their levels, an NMI edge is latched if NMI is armed and dropped
if it is not, the device events come first, and RESET overrides everything. -/
def Obligations.BoundaryInputs : Prop :=
  ∀ (inp : BoundaryInput) (rest : List BoundaryInput) (s : State), s.inputs = inp :: rest →
    let t := takeInput inp rest s
    let before := applyEvents inp.events { s with inputs := rest }
    t.nmiLine = inp.nmi ∧ t.firqLine = inp.firq ∧ t.irqLine = inp.irq ∧ t.inputs = rest ∧
    (t.nmiPending = true ↔ s.nmiPending = true ∨ (s.nmiArmed = true ∧ s.nmiLine = false ∧ inp.nmi = true)) ∧
    t = { before with nmiPending := t.nmiPending, nmiLine := t.nmiLine, firqLine := t.firqLine, irqLine := t.irqLine } ∧
    (inp.reset = true → step s = .next (resetEntry t)) ∧
    (inp.reset = false → inp.resetDuring = none → step s = match boundaryAction t with
      | .become u => .next u
      | .run i u => exec i u
      | .refuse r => .refused r)

/-- RTI (R188, R284): CC is pulled; if its E is 1, A, B, DP, X, Y and U too; then PC. With the frame in RAM or ROM memory is
unchanged and no hidden state changes. -/
def Obligations.ReturnFromInterrupt : Prop :=
  encode .rti = [0x3B] ∧
  ∀ s : State, PlainAbove 12 .s s →
    let byteAt := fun (n : Nat) => cellByte (s.s + BitVec.ofNat 16 n) s
    let wordAt := fun (n : Nat) => cellWord (s.s + BitVec.ofNat 16 n) s
    let cc := ccOfByte (byteAt 0)
    exec .rti s = .next (if cc.e then
        { s with cc, a := byteAt 1, b := byteAt 2, dp := byteAt 3, x := wordAt 4, y := wordAt 6, u := wordAt 8
                 pc := wordAt 10, s := s.s + 12 }
      else { s with cc, pc := wordAt 1, s := s.s + 3 }) ∧
    cycles .rti s = if cc.e then 15 else 6

/-- An interrupt that is entered and returned from at once restores the interrupted program (R276, R284): every register as it
was, the stacked masks too, E as the entry set it; only the bytes of the frame have changed. -/
def Obligations.EntryThenReturn : Prop :=
  ∀ (k : Interrupt) (s : State), s.wait = .none → RoomBelow 12 .s s → Plain (vectorOf k) s → Plain (vectorOf k + 1) s →
    let t := raiseInterrupt k s
    exec .rti t = .next { s with
      mem := t.mem, cc := { s.cc with e := decide (k ≠ .firq) }, nmiPending := if k = .nmi then false else s.nmiPending } ∧
    ∀ a, (∀ n, 1 ≤ n → n ≤ (if k = .firq then 3 else 12) → a ≠ s.s - BitVec.ofNat 16 n) → cellByte a t = cellByte a s

/-- SWI, SWI2, SWI3 (R203 to R205, R280, R281): always taken, whatever the masks; the entry of their kind with PC past the
instruction. CWAI and SYNC (R135, R206): CWAI and-s the mask into CC, sets E, stacks the entire frame with PC past the
instruction, and waits; SYNC waits and stacks nothing. -/
def Obligations.InterruptInstructions : Prop :=
  (InhForm [0x3F] 19 .swi ∧ InhForm [0x10, 0x3F] 20 .swi2 ∧ InhForm [0x11, 0x3F] 20 .swi3 ∧
    ∀ s : State, s.wait = .none →
      exec .swi s = .next (raiseInterrupt .swi s) ∧ exec .swi2 s = .next (raiseInterrupt .swi2 s) ∧
      exec .swi3 s = .next (raiseInterrupt .swi3 s)) ∧
  (∀ m s, encode (.cwai m) = [0x3C, m] ∧ cycles (.cwai m) s = 20) ∧ InhForm [0x13] 4 .sync ∧
  (∀ s, exec .sync s = .next { s with wait := .sync }) ∧
  ∀ (mask : Byte) (s : State),
    ∃ t, exec (.cwai mask) s = .next t ∧ t.wait = .cwai ∧
    (RoomBelow 12 .s s →
      let cc : CC := { ccOfByte (ccByte s.cc &&& mask) with e := true }
      let byteAt := fun (n : Nat) => cellByte (s.s - 12 + BitVec.ofNat 16 n) t
      let word := fun (n : Nat) => cellWord (s.s - 12 + BitVec.ofNat 16 n) t
      t = { s with s := s.s - 12, cc, wait := .cwai, mem := t.mem } ∧
      byteAt 0 = ccByte cc ∧ byteAt 1 = s.a ∧ byteAt 2 = s.b ∧ byteAt 3 = s.dp ∧ word 4 = s.x ∧ word 6 = s.y ∧ word 8 = s.u ∧
      word 10 = s.pc ∧ ∀ a, (∀ n, n < 12 → a ≠ s.s - 12 + BitVec.ofNat 16 n) → cellByte a t = cellByte a s)

/-- Waiting (R285, R286, D28): an interrupt taken out of CWAI sets its masks and loads PC with nothing stacked and E kept; a
masked one does not end CWAI; any active input ends SYNC, and a masked one without an entry; with no input the wait repeats. -/
def Obligations.Waiting : Prop :=
  ∀ s : State, s.inputs = [] →
    (∀ k, s.wait = .cwai → acceptedInterrupt s = some k → Plain (vectorOf k) s → Plain (vectorOf k + 1) s →
      step s = .next { s with
        wait := .none, pc := cellWord (vectorOf k) s
        nmiPending := if k = .nmi then false else s.nmiPending
        cc := { s.cc with i := true, f := s.cc.f || decide (k ≠ .irq) } }) ∧
    (s.wait = .cwai → acceptedInterrupt s = none → step s = .next s) ∧
    (s.wait = .sync → acceptedInterrupt s = none →
      step s = .next (if (s.nmiPending = true ∧ s.nmiArmed = true) ∨ s.firqLine = true ∨ s.irqLine = true
        then { s with wait := .none } else s)) ∧
    ∀ k, s.wait = .sync → acceptedInterrupt s = some k → step s = .next (raiseInterrupt k s)

/-! ## Whole-machine rules -/

/-- Every step keeps the relations of `Inv`, from every state: memory stays in its canonical form, an NMI edge is held only once S
has been loaded (R273), held timers show no flag (R300). -/
def Obligations.StepKeepsInvariant : Prop := ∀ s t : State, Inv s → step s = .next t → Inv t

/-- The relations of `Inv` hold after reset. -/
def Obligations.ResetInvariant : Prop := Inv State.reset

/-- Who writes the hidden bit of NMI arming, DP, and CC: NMI is armed by the instructions that load S and by nothing else (R273);
DP is changed by no instruction but TFR, EXG, PULS, PULU and RTI (R28); E, F and I by no instruction but ANDCC, ORCC, CWAI, TFR
and EXG into CC, PULS and PULU with CC, RTI and the SWIs, of which SWI2 and SWI3 leave F and I alone (R287). And which flags an
instruction leaves alone (R26): the rows of the table with no effect on any flag, and those that keep H, N, Z, V or C. -/
def Obligations.StatusFrame : Prop :=
  ∀ (i : Instr) (s t : State), exec i s = .next t →
    t.nmiArmed = (s.nmiArmed || loadsS i) ∧
    (mayWriteDp i = false → t.dp = s.dp) ∧
    (mayWriteMasks i = false → t.cc.e = s.cc.e ∧ t.cc.f = s.cc.f ∧ t.cc.i = s.cc.i) ∧
    (i = .swi2 ∨ i = .swi3 → t.cc.f = s.cc.f ∧ t.cc.i = s.cc.i) ∧
    (keepsFlags i = true → t.cc = s.cc) ∧ (keepsH i = true → t.cc.h = s.cc.h) ∧ (keepsN i = true → t.cc.n = s.cc.n) ∧
    (keepsZ i = true → t.cc.z = s.cc.z) ∧ (keepsV i = true → t.cc.v = s.cc.v) ∧ (keepsC i = true → t.cc.c = s.cc.c)

/-- Memory changes only at the bytes an instruction stores to (R49): every other address holds what it held, and an instruction
that stores nothing leaves all of memory as it was; MEM_MAP never changes. -/
def Obligations.MemoryFrame : Prop :=
  ∀ (i : Instr) (s t : State), exec i s = .next t →
    t.memMap = s.memMap ∧ ∀ a, a ∉ storesTo i s → cellByte a t = cellByte a s

/-- A general register changes only where the spec says so: A, B, X, Y, U and S keep their value under every instruction that
`writesRegs` does not list (R23). -/
def Obligations.RegisterFrame : Prop :=
  ∀ (i : Instr) (s t : State) (r : Reg), exec i s = .next t → r ∉ writesRegs i → r ≠ .pc → r ≠ .cc → getReg r t = getReg r s

/-! ## Reset -/

/-- The state after reset as R330 fixes it: PC from the vector in the ROM, I = F = 1, DP = $00, NMI unarmed and not pending, no
wait, the MC6821 all $00, the MC6840 held with its latches $FFFF and no flag. -/
def Obligations.ResetValues : Prop :=
  let s := State.reset
  s.pc = cellWord 0xFFFE s ∧ cellWord 0xFFFE s = catBytes (Config.romImage 0xFFFE) (Config.romImage 0xFFFF) ∧
  s.cc.i = true ∧ s.cc.f = true ∧ s.dp = 0 ∧ s.nmiArmed = false ∧ s.nmiPending = false ∧ s.wait = .none ∧
  (∀ p, let port := portOf p s
    port.latch = 0 ∧ port.ddr = 0 ∧ controlByte port = 0) ∧
  s.ptm.timer1.ctrl = 0x01 ∧ s.ptm.timer2.ctrl = 0 ∧ s.ptm.timer3.ctrl = 0 ∧ statusByte s.ptm = 0 ∧
  ∀ t, (timerOf t s.ptm).latch = 0xFFFF

/-- A RESET input, at any boundary and in any wait (R330, R331): the fields R330 fixes take their values, PC comes from the
vector, nothing is stacked and memory is unchanged. -/
def Obligations.ResetInput : Prop :=
  ∀ (inp : BoundaryInput) (rest : List BoundaryInput) (s : State), s.inputs = inp :: rest → inp.reset = true →
    Plain 0xFFFE s → Plain 0xFFFF s →
    ∃ t, step s = .next t ∧ t.pc = cellWord 0xFFFE s ∧ t.cc.i = true ∧ t.cc.f = true ∧ t.dp = 0 ∧
      t.nmiArmed = false ∧ t.nmiPending = false ∧ t.wait = .none ∧ SameMemory s t ∧
      (∀ p, let port := portOf p t
        port.latch = 0 ∧ port.ddr = 0 ∧ controlByte port = 0) ∧
      t.ptm.timer1.ctrl = 0x01 ∧ t.ptm.timer2.ctrl = 0 ∧ t.ptm.timer3.ctrl = 0 ∧ statusByte t.ptm = 0 ∧
      ∀ n, (timerOf n t.ptm).latch = 0xFFFF

/-- A RESET input in the middle (R331): it "abandons the instruction in progress", or an interrupt entry, after so many of its byte
stores, in their order. Those bytes are stored, all other memory is unchanged, and the fields R330 fixes are as after any reset. How
many stores are done is the input's (log 11). -/
def Obligations.ResetInTheMiddle : Prop :=
  ∀ (inp : BoundaryInput) (rest : List BoundaryInput) (k : Nat) (s : State), s.inputs = inp :: rest → inp.reset = false →
    inp.resetDuring = some k → Plain 0xFFFE s → Plain 0xFFFF s →
    let t := takeInput inp rest s
    let abandons := fun (stores : List Word) (completed : State) => ∃ v, step s = .next v ∧
      (∀ a, a ∉ stores.take k → cellByte a v = cellByte a s) ∧ (∀ a ∈ stores.take k, cellByte a v = cellByte a completed) ∧
      v.memMap = s.memMap ∧ v.pc = cellWord 0xFFFE v ∧ v.cc.i = true ∧ v.cc.f = true ∧ v.dp = 0 ∧
      v.nmiArmed = false ∧ v.nmiPending = false ∧ v.wait = .none ∧
      (∀ p, let port := portOf p v
        port.latch = 0 ∧ port.ddr = 0 ∧ controlByte port = 0) ∧
      v.ptm.timer1.ctrl = 0x01 ∧ v.ptm.timer2.ctrl = 0 ∧ v.ptm.timer3.ctrl = 0 ∧ statusByte v.ptm = 0 ∧
      ∀ n, (timerOf n v.ptm).latch = 0xFFFF
    (∀ i r fetched completed, acceptedInterrupt t = none → t.wait = .none → fetch t = (.ok i r, fetched) →
      exec i fetched = .next completed → abandons (storesTo i fetched) completed) ∧
    ∀ n, acceptedInterrupt t = some n →
      abandons (if t.wait = .cwai then [] else if n = .firq then below t.s 3 else below t.s 12) (raiseInterrupt n t)

/-! ## Devices -/

/-- MC6821, as the CPU reads and writes it at its four addresses (R292 to R295), for both ports: bit 2 of the control register
selects the data direction register or the data register; writing loads the selected one; reading the data register answers the
pins on input lines and, on port B, the latch on output lines, and clears both flags; bits 7 and 6 of the control register are
read-only, and bit 6 reads 0 while bit 5 is 1. All from the state s in which the port is at the access, after what it did of its own
(20_memory R49), which by the model's choice comes just before that access (log 31). -/
def Obligations.ParallelPort : Prop :=
  ∀ (p : PortName) (v : Byte) (s₀ : State),
    let s := letDevicesMove s₀
    let data : Word := match p with | .a => 0xF000 | .b => 0xF002
    let control : Word := data + 1
    let port := portOf p s
    let written := portOf p (writeByte data v s₀)
    let controlled := portOf p (writeByte control v s₀)
    let r := readByte data s₀
    (port.ctrl.getLsbD 2 = false → written = { port with ddr := v } ∧ r = (port.ddr, s)) ∧
    (port.ctrl.getLsbD 2 = true → written = { port with latch := v } ∧
      portOf p r.2 = { port with irq1 := false, irq2 := false } ∧
      (∀ k, k < 8 → port.ddr.getLsbD k = false → r.1.getLsbD k = port.pins.getLsbD k) ∧
      (p = .b → ∀ k, k < 8 → port.ddr.getLsbD k = true → r.1.getLsbD k = port.latch.getLsbD k)) ∧
    (∃ c, readByte control s₀ = (c, s) ∧ c.getLsbD 7 = port.irq1 ∧
      c.getLsbD 6 = (port.irq2 && !port.ctrl.getLsbD 5) ∧ ∀ k, k < 6 → c.getLsbD k = port.ctrl.getLsbD k) ∧
    controlled = { port with ctrl := controlled.ctrl } ∧ (∀ k, k < 6 → controlled.ctrl.getLsbD k = v.getLsbD k) ∧
    SameMemory s (writeByte data v s₀) ∧ SameMemory s r.2

/-- The MC6821's lines from outside and its interrupt output (R294, R295): the active edge of CA1/CB1 sets flag bit 7 whether or
not the interrupt is enabled, that of CA2/CB2 sets bit 6 when the line is an input; no change of a
level clears a flag; that the level of CA2/CB2 is followed while the line is an output is the model's choice (log 17); the output is active as R295 says; CB2 follows bit 3 with bits 5 and 4 both 1. -/
def Obligations.ParallelPortInterrupts : Prop :=
  ∀ (p : PortName) (level : Bool) (s : State),
    let port := portOf p s
    let one := portOf p (applyEvent (.controlLine1 p level) s)
    let two := portOf p (applyEvent (.controlLine2 p level) s)
    let edge := fun (rising old : Bool) => old ≠ level ∧ level = rising
    (one.irq1 = true ↔ port.irq1 = true ∨ edge (port.ctrl.getLsbD 1) port.c1) ∧
    one = { port with c1 := level, irq1 := one.irq1 } ∧
    (two.irq2 = true ↔ port.irq2 = true ∨ (port.ctrl.getLsbD 5 = false ∧ edge (port.ctrl.getLsbD 4) port.c2)) ∧
    two = { port with c2 := level, irq2 := two.irq2 } ∧
    (portIrq port = true ↔ (port.irq1 = true ∧ port.ctrl.getLsbD 0 = true) ∨
      (port.irq2 = true ∧ port.ctrl.getLsbD 3 = true ∧ port.ctrl.getLsbD 5 = false)) ∧
    (port.ctrl.getLsbD 5 = true → port.ctrl.getLsbD 4 = true → controlOutput port = some (port.ctrl.getLsbD 3))

/-- MC6840, register select (R296, R297): $F018 writes CR#1 or CR#3 by bit 0 of CR#2, $F019 writes CR#2 and reads the status
register, the even addresses write the MSB buffer and read the MSB of their counter, the odd ones load their latches, with the MSB
buffer above the byte (R298), and read the LSB buffer. A read of $F018, which R296 and R297 leave open, is the model's free byte (log
21): it answers some byte and changes only the count of free values. All from the state s in which the
timer is at the access, after what it did of its own (20_memory R49), which by the model's choice comes just before that access (log
31). -/
def Obligations.TimerRegisters : Prop :=
  ∀ (t : TimerNo) (v : Byte) (s₀ : State),
    let s := letDevicesMove s₀
    let even : Word := match t with | .t1 => 0xF01A | .t2 => 0xF01C | .t3 => 0xF01E
    (s.ptm.timer2.ctrl.getLsbD 0 = true → (writeByte 0xF018 v s₀).ptm.timer1.ctrl = v ∧
      (writeByte 0xF018 v s₀).ptm.timer3.ctrl = s.ptm.timer3.ctrl) ∧
    (s.ptm.timer2.ctrl.getLsbD 0 = false → (writeByte 0xF018 v s₀).ptm = { s.ptm with timer3 := { s.ptm.timer3 with ctrl := v } }) ∧
    (writeByte 0xF019 v s₀).ptm = { s.ptm with timer2 := { s.ptm.timer2 with ctrl := v } } ∧
    (readByte 0xF019 s₀).1 = statusByte s.ptm ∧
    (writeByte even v s₀).ptm = { s.ptm with msbBuffer := v } ∧
    (readByte even s₀).1 = hiByte (timerOf t s.ptm).counter ∧
    (timerOf t (writeByte (even + 1) v s₀).ptm).latch = BitVec.ofNat 16 (256 * s.ptm.msbBuffer.toNat + v.toNat) ∧
    (∀ u, u ≠ t → timerOf u (writeByte (even + 1) v s₀).ptm = timerOf u s.ptm) ∧
    (readByte (even + 1) s₀).1 = s.ptm.lsbBuffer ∧
    ∃ b, readByte 0xF018 s₀ = (b, nextDraw s)

/-- MC6840, counting and flags (R298 to R300): a 16-bit store at a timer's even address loads its latches and clears its flag, a
16-bit load there reads the counter; a clock pulse counts only while bit 0 of CR#1 is 0, only from the clock that bit 1 of the
timer's control register selects, at timer 3 only while the gate G3 is active and, with bit 0 of CR#3 set, only every eighth one; the
end of a count cycle sets the timer's flag and in the continuous mode turns the square wave, which the pin O shows while bit 7 is 1;
the status register shows the flags and their enabled disjunction; a read of it followed by a read of the counter clears the timer's
flag, either read alone after no other clears nothing; a write of 1 to bit 0 of CR#1 clears all. All from the state s in
which the timer is at the first access, after what it did of its own, and whatever it does between two accesses (20_memory R49), which
by the model's choice comes just before an access at a device's address (log 31). -/
def Obligations.TimerFlags : Prop :=
  ∀ (t : TimerNo) (clock : ClockSource) (w : Word) (ends : Bool) (v : Byte) (s₀ : State),
    let s := letDevicesMove s₀
    let even : Word := match t with | .t1 => 0xF01A | .t2 => 0xF01C | .t3 => 0xF01E
    let pulse : DeviceEvent := .timerClock t clock w ends
    let held := s.ptm.timer1.ctrl.getLsbD 0
    let status := readByte 0xF019 s₀
    let flag := fun (u : TimerNo) => (timerOf u s.ptm).irq
    let enabled := fun (u : TimerNo) => (timerOf u s.ptm).ctrl.getLsbD 6
    ((timerOf t (writeWord even w s₀).ptm).latch = w ∧ (timerOf t (writeWord even w s₀).ptm).irq = false ∧
      (readWord even s₀).1 = (timerOf t s.ptm).counter) ∧
    (held = true ∨ clock ≠ (if (timerOf t s.ptm).ctrl.getLsbD 1 then .system else .external) ∨ (t = .t3 ∧ s.ptm.gate3 = false) →
      (applyEvent pulse s).ptm = s.ptm) ∧
    (held = false → clock = (if (timerOf t s.ptm).ctrl.getLsbD 1 then .system else .external) →
      (t = .t3 → s.ptm.gate3 = true ∧ (s.ptm.timer3.ctrl.getLsbD 0 = false ∨ s.ptm.divider3 = 7)) →
      (timerOf t (applyEvent pulse s).ptm).counter = w ∧
      (timerOf t (applyEvent pulse s).ptm).irq = ((timerOf t s.ptm).irq || ends) ∧
      ((timerOf t s.ptm).ctrl.extractLsb' 3 3 = 0 → (timerOf t s.ptm).ctrl.getLsbD 7 = true →
        timerOutput (timerOf t (applyEvent pulse s).ptm) = some ((timerOf t s.ptm).wave ^^ ends)) ∧
      ∀ u, u ≠ t → timerOf u (applyEvent pulse s).ptm = timerOf u s.ptm) ∧
    (s.ptm.timer3.ctrl.getLsbD 0 = true → s.ptm.divider3 ≠ 7 →
      timerOf .t3 (applyEvent (.timerClock .t3 clock w ends) s).ptm = s.ptm.timer3) ∧
    (s.ptm.timer3.ctrl.getLsbD 0 = true → held = false → s.ptm.gate3 = true →
      clock = (if s.ptm.timer3.ctrl.getLsbD 1 then .system else .external) →
      (applyEvent (.timerClock .t3 clock w ends) s).ptm.divider3 = s.ptm.divider3 + 1) ∧
    status.1.getLsbD 0 = flag .t1 ∧ status.1.getLsbD 1 = flag .t2 ∧ status.1.getLsbD 2 = flag .t3 ∧
    (∀ k, 3 ≤ k → k ≤ 6 → status.1.getLsbD k = false) ∧
    (status.1.getLsbD 7 = true ↔ ∃ u, flag u = true ∧ enabled u = true) ∧
    (∀ u, (timerOf u status.2.ptm).irq = flag u) ∧
    (timerOf t (readByte even status.2).2.ptm).irq = false ∧
    ((timerOf t s.ptm).statusRead = false → (timerOf t (readByte even s₀).2.ptm).irq = flag t) ∧
    (s.ptm.timer2.ctrl.getLsbD 0 = true → v.getLsbD 0 = true → ∀ u, (timerOf u (writeByte 0xF018 v s₀).ptm).irq = false)

/-- Keyboard and display (R303, R304): the row at $F010 + r answers its four keys on bits 0 to 3, all in one polarity; a store at
$F020 + n or $F028 + n is the digit Sn's byte. All from the state in which the devices are at the access, after what they did of
their own (20_memory R49), which by the model's choice comes just before that access (log 31). -/
def Obligations.KeyboardAndDisplay : Prop :=
  (∀ (r : Fin 7) (s : State), ∀ k, k < 4 →
    (readByte (0xF010 + BitVec.ofNat 16 r.val) s).1.getLsbD k = (((letDevicesMove s).keys.get r).getLsbD k == Config.keyActive)) ∧
  ∀ (n : Fin 8) (v : Byte) (s₀ : State),
    let s := letDevicesMove s₀
    writeByte (0xF020 + BitVec.ofNat 16 n.val) v s₀ = { s with display := s.display.set n.val v n.isLt } ∧
    writeByte (0xF028 + BitVec.ofNat 16 n.val) v s₀ = { s with display := s.display.set n.val v n.isLt }
end

