-- ==== Sys2Proof/Laws/Bits.lean ====
section
/-! SUPPORT. Byte order and register codes: what is taken apart is what was put together. -/

namespace Sys2Proof.Machine

@[simp] theorem hiByte_catBytes (h l : Byte) : hiByte (catBytes h l) = h := by
  apply BitVec.eq_of_getLsbD_eq
  intro i hi
  simp only [hiByte, catBytes, BitVec.getLsbD_extractLsb', BitVec.getLsbD_append]
  simp [show ¬ (8 + i < 8) by omega, hi]

@[simp] theorem loByte_catBytes (h l : Byte) : loByte (catBytes h l) = l := by
  apply BitVec.eq_of_getLsbD_eq
  intro i hi
  simp only [loByte, catBytes, BitVec.getLsbD_extractLsb', BitVec.getLsbD_append]
  simp [hi]

@[simp] theorem catBytes_hi_lo (w : Word) : catBytes (hiByte w) (loByte w) = w := by
  apply BitVec.eq_of_getLsbD_eq
  intro i hi
  simp only [hiByte, loByte, catBytes, BitVec.getLsbD_extractLsb', BitVec.getLsbD_append]
  by_cases h : i < 8
  · simp [h]
  · simp [h, show 8 + (i - 8) = i by omega, show i - 8 < 8 by omega]

@[simp] theorem idxOfCode_idxCode (r : IdxReg) : idxOfCode (idxCode r) = r := by cases r <;> rfl

@[simp] theorem regOfCode_regCode (r : Reg) : regOfCode (regCode r) = some r := by cases r <;> decide

end Sys2Proof.Machine

namespace Sys2Proof

@[simp] theorem decodeWord_encodeWord (w : Word) (rest : List Byte) : decodeWord (encodeWord w ++ rest) = .ok w rest := by
  simp [encodeWord, decodeWord]

/-- The post-byte and offset bytes of an indexed form read back as the form (30_encoding R68 to R81). -/
theorem decodeIndexed_encodeIndexed (m : Indexed) (rest : List Byte) :
    decodeIndexed (encodeIndexed m ++ rest) = .ok m rest := by
  cases m with
  | off5 r n =>
    have h1 : (0#1 ++ Machine.idxCode r ++ n : BitVec 8).getLsbD 7 = false := by
      simp only [BitVec.getLsbD_append]; simp
    have h2 : (0#1 ++ Machine.idxCode r ++ n : BitVec 8).extractLsb' 5 2 = Machine.idxCode r := by
      apply BitVec.eq_of_getLsbD_eq
      intro i hi
      simp only [BitVec.getLsbD_extractLsb', BitVec.getLsbD_append]
      simp [hi, show ¬ (5 + i < 5) by omega]
    have h3 : (0#1 ++ Machine.idxCode r ++ n : BitVec 8).extractLsb' 0 5 = n := by
      apply BitVec.eq_of_getLsbD_eq
      intro i hi
      simp only [BitVec.getLsbD_extractLsb', BitVec.getLsbD_append]
      simp [hi]
    simp only [encodeIndexed, List.singleton_append, decodeIndexed, h1, h2, h3, Machine.idxOfCode_idxCode]
    rfl
  | noOff r ind => cases r <;> cases ind <;> rfl
  | off8 r n ind => cases r <;> cases ind <;> rfl
  | off16 r n ind =>
    cases r <;> cases ind <;>
      simp [encodeIndexed, decodeIndexed, postbyte, decodeSubmode, Machine.idxCode, Machine.idxOfCode, mapDecoded]
  | accA r ind => cases r <;> cases ind <;> rfl
  | accB r ind => cases r <;> cases ind <;> rfl
  | accD r ind => cases r <;> cases ind <;> rfl
  | inc1 r => cases r <;> rfl
  | inc2 r ind => cases r <;> cases ind <;> rfl
  | dec1 r => cases r <;> rfl
  | dec2 r ind => cases r <;> cases ind <;> rfl
  | pcr8 n ind => cases ind <;> rfl
  | pcr16 n ind =>
    cases ind <;> simp [encodeIndexed, decodeIndexed, postbyte, decodeSubmode, Machine.idxCode, mapDecoded]
  | extInd n => simp [encodeIndexed, decodeIndexed, postbyte, decodeSubmode, Machine.idxCode, mapDecoded]

end Sys2Proof
end

