-- ==== Sys2Proof/Laws/Memory.lean ====
section
/-! SUPPORT. The laws of the byte list: read after write, and that every operation keeps the canonical form. -/

namespace Sys2Proof.Machine

theorem Memory.get_put_same (n : Nat) (v : Byte) (m : Memory) : (Memory.put n v m).get n = some v := by
  induction m with
  | nil => simp [Memory.put, Memory.get]
  | cons c m ih =>
    simp only [Memory.put]
    split
    · simp [Memory.get]
    · split
      · simp [Memory.get]
      · have : c.1 ≠ n := by omega
        simp [Memory.get, this, ih]

theorem Memory.get_put_other {n k : Nat} (v : Byte) (m : Memory) (h : k ≠ n) : (Memory.put n v m).get k = m.get k := by
  induction m with
  | nil => simp [Memory.put, Memory.get, h.symm]
  | cons c m ih =>
    simp only [Memory.put]
    split
    · simp [Memory.get, h.symm]
    · split
      · rename_i h1 h2
        simp [Memory.get, h.symm, ← h2]
      · simp [Memory.get, ih]

theorem Memory.risesFrom_mono {lo lo' : Nat} {m : Memory} (h : Memory.risesFrom lo' m = true) (hl : lo ≤ lo') :
    Memory.risesFrom lo m = true := by
  cases m with
  | nil => rfl
  | cons c m =>
    simp only [Memory.risesFrom, Bool.and_eq_true, decide_eq_true_eq] at h ⊢
    exact ⟨⟨by omega, h.1.2⟩, h.2⟩

theorem Memory.risesFrom_put {lo n : Nat} {v : Byte} {m : Memory} (h : Memory.risesFrom lo m = true) (hl : lo ≤ n)
    (hn : n < 65536) : Memory.risesFrom lo (Memory.put n v m) = true := by
  induction m generalizing lo with
  | nil => simp [Memory.put, Memory.risesFrom, hl, hn]
  | cons c m ih =>
    simp only [Memory.risesFrom, Bool.and_eq_true, decide_eq_true_eq] at h
    simp only [Memory.put]
    split
    · rename_i hc
      simp [Memory.risesFrom, hl, hn, h.1.2, h.2, hc]
    · split
      · rename_i h1 h2
        subst h2
        simp [Memory.risesFrom, hl, hn, h.2]
      · simp only [Memory.risesFrom, Bool.and_eq_true, decide_eq_true_eq]
        exact ⟨h.1, ih h.2 (by omega)⟩

/-- A write keeps the canonical form. -/
theorem Memory.wf_put {n : Nat} {v : Byte} {m : Memory} (h : m.wf = true) (hn : n < 65536) : (Memory.put n v m).wf = true :=
  Memory.risesFrom_put h (Nat.zero_le n) hn

/-- Storing bytes from outside keeps the canonical form. -/
theorem Memory.wf_loadBytes {a : Nat} {bs : List Byte} {m : Memory} (h : m.wf = true) (ha : a + bs.length ≤ 65536) :
    (loadBytes a bs m).wf = true := by
  induction bs generalizing a m with
  | nil => exact h
  | cons b bs ih =>
    simp only [List.length_cons] at ha
    exact ih (Memory.wf_put h (by omega)) (by omega)

/-- Copying cells changes no byte outside the addresses copied, and copies each of them that the other memory lists. -/
theorem copyCells_get {after m : Memory} {addrs : List Word} {n : Nat} :
    (copyCells after addrs m).get n =
      if (∃ a ∈ addrs, a.toNat = n) ∧ (after.get n).isSome then after.get n else m.get n := by
  induction addrs generalizing m with
  | nil => simp [copyCells]
  | cons a rest ih =>
    simp only [copyCells]
    cases hv : after.get a.toNat with
    | none =>
      rw [ih]
      by_cases hn : a.toNat = n
      · subst hn
        simp [hv]
      · simp [hn]
    | some v =>
      rw [ih]
      by_cases hn : a.toNat = n
      · subst hn
        simp [hv, Memory.get_put_same]
      · simp [hn, Memory.get_put_other v m (Ne.symm hn)]

theorem Memory.wf_copyCells {after m : Memory} {addrs : List Word} (h : m.wf = true) : (copyCells after addrs m).wf = true := by
  induction addrs generalizing m with
  | nil => exact h
  | cons a rest ih =>
    simp only [copyCells]
    split
    · exact ih (Memory.wf_put h a.isLt)
    · exact ih h

/-- Two canonical lists that read the same are the same list. -/
theorem Memory.ext_of_risesFrom {lo : Nat} {m m' : Memory} (h : Memory.risesFrom lo m = true)
    (h' : Memory.risesFrom lo m' = true) (hg : ∀ n, m.get n = m'.get n) : m = m' := by
  have low : ∀ {lo : Nat} {m : Memory} {n : Nat}, Memory.risesFrom lo m = true → n < lo → m.get n = none := by
    intro lo m
    induction m generalizing lo with
    | nil => intros; rfl
    | cons c m ih =>
      intro n h hn
      simp only [Memory.risesFrom, Bool.and_eq_true, decide_eq_true_eq] at h
      have : c.1 ≠ n := by omega
      simp [Memory.get, this, ih h.2 (by omega : n < c.1 + 1)]
  induction m generalizing lo m' with
  | nil =>
    cases m' with
    | nil => rfl
    | cons c' m' => simpa [Memory.get] using hg c'.1
  | cons c m ih =>
    cases m' with
    | nil => simpa [Memory.get] using hg c.1
    | cons c' m' =>
      simp only [Memory.risesFrom, Bool.and_eq_true, decide_eq_true_eq] at h h'
      have hk : c.1 = c'.1 := by
        by_contra hne
        rcases Nat.lt_or_gt_of_ne hne with hlt | hgt
        · have := hg c.1
          simp [Memory.get, Ne.symm hne, low h'.2 (by omega : c.1 < c'.1 + 1)] at this
        · have := hg c'.1
          simp [Memory.get, hne, low h.2 (by omega : c'.1 < c.1 + 1)] at this
      have hv : c.2 = c'.2 := by simpa [Memory.get, hk] using hg c.1
      have ht : m = m' := by
        refine ih h.2 (hk ▸ h'.2) fun n => ?_
        by_cases hn : n = c.1
        · subst hn
          rw [low h.2 (by omega), low h'.2 (by omega)]
        · have := hg n
          simpa [Memory.get, Ne.symm hn, hk ▸ Ne.symm hn] using this
      rw [ht, show c = c' from Prod.ext hk hv]

/-- "equal memories are equal data". -/
theorem Memory.ext_of_wf {m m' : Memory} (h : m.wf = true) (h' : m'.wf = true) (hg : ∀ n, m.get n = m'.get n) : m = m' :=
  Memory.ext_of_risesFrom h h' hg

/-- Memory after reset has the canonical form. -/
theorem Memory.wf_reset : State.reset.mem.wf = true := rfl

end Sys2Proof.Machine
end

