-- ==== Sys2Proof/Laws/State.lean ====
section
/-! SUPPORT. One lemma per field per update of the state. -/

namespace Sys2Proof.Machine

@[simp] theorem nextDraw_a (st : State) : (nextDraw st).a = st.a := rfl
@[simp] theorem nextDraw_b (st : State) : (nextDraw st).b = st.b := rfl
@[simp] theorem nextDraw_x (st : State) : (nextDraw st).x = st.x := rfl
@[simp] theorem nextDraw_y (st : State) : (nextDraw st).y = st.y := rfl
@[simp] theorem nextDraw_u (st : State) : (nextDraw st).u = st.u := rfl
@[simp] theorem nextDraw_s (st : State) : (nextDraw st).s = st.s := rfl
@[simp] theorem nextDraw_pc (st : State) : (nextDraw st).pc = st.pc := rfl
@[simp] theorem nextDraw_dp (st : State) : (nextDraw st).dp = st.dp := rfl
@[simp] theorem nextDraw_cc (st : State) : (nextDraw st).cc = st.cc := rfl
@[simp] theorem nextDraw_nmiArmed (st : State) : (nextDraw st).nmiArmed = st.nmiArmed := rfl
@[simp] theorem nextDraw_nmiPending (st : State) : (nextDraw st).nmiPending = st.nmiPending := rfl
@[simp] theorem nextDraw_wait (st : State) : (nextDraw st).wait = st.wait := rfl
@[simp] theorem nextDraw_nmiLine (st : State) : (nextDraw st).nmiLine = st.nmiLine := rfl
@[simp] theorem nextDraw_firqLine (st : State) : (nextDraw st).firqLine = st.firqLine := rfl
@[simp] theorem nextDraw_irqLine (st : State) : (nextDraw st).irqLine = st.irqLine := rfl
@[simp] theorem nextDraw_mem (st : State) : (nextDraw st).mem = st.mem := rfl
@[simp] theorem nextDraw_memMap (st : State) : (nextDraw st).memMap = st.memMap := rfl
@[simp] theorem nextDraw_pia (st : State) : (nextDraw st).pia = st.pia := rfl
@[simp] theorem nextDraw_ptm (st : State) : (nextDraw st).ptm = st.ptm := rfl
@[simp] theorem nextDraw_keys (st : State) : (nextDraw st).keys = st.keys := rfl
@[simp] theorem nextDraw_between (st : State) : (nextDraw st).between = st.between := rfl
@[simp] theorem nextDraw_display (st : State) : (nextDraw st).display = st.display := rfl
@[simp] theorem nextDraw_inputs (st : State) : (nextDraw st).inputs = st.inputs := rfl
@[simp] theorem nextDraw_draws (st : State) : (nextDraw st).draws = st.draws + 1 := rfl

@[simp] theorem setD_a (v : Word) (st : State) : (setD v st).a = hiByte v := rfl
@[simp] theorem setD_b (v : Word) (st : State) : (setD v st).b = loByte v := rfl
@[simp] theorem setD_x (v : Word) (st : State) : (setD v st).x = st.x := rfl
@[simp] theorem setD_y (v : Word) (st : State) : (setD v st).y = st.y := rfl
@[simp] theorem setD_u (v : Word) (st : State) : (setD v st).u = st.u := rfl
@[simp] theorem setD_s (v : Word) (st : State) : (setD v st).s = st.s := rfl
@[simp] theorem setD_pc (v : Word) (st : State) : (setD v st).pc = st.pc := rfl
@[simp] theorem setD_dp (v : Word) (st : State) : (setD v st).dp = st.dp := rfl
@[simp] theorem setD_cc (v : Word) (st : State) : (setD v st).cc = st.cc := rfl
@[simp] theorem setD_nmiArmed (v : Word) (st : State) : (setD v st).nmiArmed = st.nmiArmed := rfl
@[simp] theorem setD_nmiPending (v : Word) (st : State) : (setD v st).nmiPending = st.nmiPending := rfl
@[simp] theorem setD_wait (v : Word) (st : State) : (setD v st).wait = st.wait := rfl
@[simp] theorem setD_nmiLine (v : Word) (st : State) : (setD v st).nmiLine = st.nmiLine := rfl
@[simp] theorem setD_firqLine (v : Word) (st : State) : (setD v st).firqLine = st.firqLine := rfl
@[simp] theorem setD_irqLine (v : Word) (st : State) : (setD v st).irqLine = st.irqLine := rfl
@[simp] theorem setD_mem (v : Word) (st : State) : (setD v st).mem = st.mem := rfl
@[simp] theorem setD_memMap (v : Word) (st : State) : (setD v st).memMap = st.memMap := rfl
@[simp] theorem setD_pia (v : Word) (st : State) : (setD v st).pia = st.pia := rfl
@[simp] theorem setD_ptm (v : Word) (st : State) : (setD v st).ptm = st.ptm := rfl
@[simp] theorem setD_keys (v : Word) (st : State) : (setD v st).keys = st.keys := rfl
@[simp] theorem setD_between (v : Word) (st : State) : (setD v st).between = st.between := rfl
@[simp] theorem setD_display (v : Word) (st : State) : (setD v st).display = st.display := rfl
@[simp] theorem setD_inputs (v : Word) (st : State) : (setD v st).inputs = st.inputs := rfl
@[simp] theorem setD_draws (v : Word) (st : State) : (setD v st).draws = st.draws := rfl

@[simp] theorem loadS_a (v : Word) (st : State) : (loadS v st).a = st.a := rfl
@[simp] theorem loadS_b (v : Word) (st : State) : (loadS v st).b = st.b := rfl
@[simp] theorem loadS_x (v : Word) (st : State) : (loadS v st).x = st.x := rfl
@[simp] theorem loadS_y (v : Word) (st : State) : (loadS v st).y = st.y := rfl
@[simp] theorem loadS_u (v : Word) (st : State) : (loadS v st).u = st.u := rfl
@[simp] theorem loadS_s (v : Word) (st : State) : (loadS v st).s = v := rfl
@[simp] theorem loadS_pc (v : Word) (st : State) : (loadS v st).pc = st.pc := rfl
@[simp] theorem loadS_dp (v : Word) (st : State) : (loadS v st).dp = st.dp := rfl
@[simp] theorem loadS_cc (v : Word) (st : State) : (loadS v st).cc = st.cc := rfl
@[simp] theorem loadS_nmiArmed (v : Word) (st : State) : (loadS v st).nmiArmed = true := rfl
@[simp] theorem loadS_nmiPending (v : Word) (st : State) : (loadS v st).nmiPending = st.nmiPending := rfl
@[simp] theorem loadS_wait (v : Word) (st : State) : (loadS v st).wait = st.wait := rfl
@[simp] theorem loadS_nmiLine (v : Word) (st : State) : (loadS v st).nmiLine = st.nmiLine := rfl
@[simp] theorem loadS_firqLine (v : Word) (st : State) : (loadS v st).firqLine = st.firqLine := rfl
@[simp] theorem loadS_irqLine (v : Word) (st : State) : (loadS v st).irqLine = st.irqLine := rfl
@[simp] theorem loadS_mem (v : Word) (st : State) : (loadS v st).mem = st.mem := rfl
@[simp] theorem loadS_memMap (v : Word) (st : State) : (loadS v st).memMap = st.memMap := rfl
@[simp] theorem loadS_pia (v : Word) (st : State) : (loadS v st).pia = st.pia := rfl
@[simp] theorem loadS_ptm (v : Word) (st : State) : (loadS v st).ptm = st.ptm := rfl
@[simp] theorem loadS_keys (v : Word) (st : State) : (loadS v st).keys = st.keys := rfl
@[simp] theorem loadS_between (v : Word) (st : State) : (loadS v st).between = st.between := rfl
@[simp] theorem loadS_display (v : Word) (st : State) : (loadS v st).display = st.display := rfl
@[simp] theorem loadS_inputs (v : Word) (st : State) : (loadS v st).inputs = st.inputs := rfl
@[simp] theorem loadS_draws (v : Word) (st : State) : (loadS v st).draws = st.draws := rfl

@[simp] theorem setE_a (v : Bool) (st : State) : (setE v st).a = st.a := rfl
@[simp] theorem setE_b (v : Bool) (st : State) : (setE v st).b = st.b := rfl
@[simp] theorem setE_x (v : Bool) (st : State) : (setE v st).x = st.x := rfl
@[simp] theorem setE_y (v : Bool) (st : State) : (setE v st).y = st.y := rfl
@[simp] theorem setE_u (v : Bool) (st : State) : (setE v st).u = st.u := rfl
@[simp] theorem setE_s (v : Bool) (st : State) : (setE v st).s = st.s := rfl
@[simp] theorem setE_pc (v : Bool) (st : State) : (setE v st).pc = st.pc := rfl
@[simp] theorem setE_dp (v : Bool) (st : State) : (setE v st).dp = st.dp := rfl
@[simp] theorem setE_cc (v : Bool) (st : State) : (setE v st).cc = { st.cc with e := v } := rfl
@[simp] theorem setE_nmiArmed (v : Bool) (st : State) : (setE v st).nmiArmed = st.nmiArmed := rfl
@[simp] theorem setE_nmiPending (v : Bool) (st : State) : (setE v st).nmiPending = st.nmiPending := rfl
@[simp] theorem setE_wait (v : Bool) (st : State) : (setE v st).wait = st.wait := rfl
@[simp] theorem setE_nmiLine (v : Bool) (st : State) : (setE v st).nmiLine = st.nmiLine := rfl
@[simp] theorem setE_firqLine (v : Bool) (st : State) : (setE v st).firqLine = st.firqLine := rfl
@[simp] theorem setE_irqLine (v : Bool) (st : State) : (setE v st).irqLine = st.irqLine := rfl
@[simp] theorem setE_mem (v : Bool) (st : State) : (setE v st).mem = st.mem := rfl
@[simp] theorem setE_memMap (v : Bool) (st : State) : (setE v st).memMap = st.memMap := rfl
@[simp] theorem setE_pia (v : Bool) (st : State) : (setE v st).pia = st.pia := rfl
@[simp] theorem setE_ptm (v : Bool) (st : State) : (setE v st).ptm = st.ptm := rfl
@[simp] theorem setE_keys (v : Bool) (st : State) : (setE v st).keys = st.keys := rfl
@[simp] theorem setE_between (v : Bool) (st : State) : (setE v st).between = st.between := rfl
@[simp] theorem setE_display (v : Bool) (st : State) : (setE v st).display = st.display := rfl
@[simp] theorem setE_inputs (v : Bool) (st : State) : (setE v st).inputs = st.inputs := rfl
@[simp] theorem setE_draws (v : Bool) (st : State) : (setE v st).draws = st.draws := rfl

@[simp] theorem setPort_a (p : PortName) (v : PiaPort) (st : State) : (setPort p v st).a = st.a := by cases p <;> rfl
@[simp] theorem setPort_b (p : PortName) (v : PiaPort) (st : State) : (setPort p v st).b = st.b := by cases p <;> rfl
@[simp] theorem setPort_x (p : PortName) (v : PiaPort) (st : State) : (setPort p v st).x = st.x := by cases p <;> rfl
@[simp] theorem setPort_y (p : PortName) (v : PiaPort) (st : State) : (setPort p v st).y = st.y := by cases p <;> rfl
@[simp] theorem setPort_u (p : PortName) (v : PiaPort) (st : State) : (setPort p v st).u = st.u := by cases p <;> rfl
@[simp] theorem setPort_s (p : PortName) (v : PiaPort) (st : State) : (setPort p v st).s = st.s := by cases p <;> rfl
@[simp] theorem setPort_pc (p : PortName) (v : PiaPort) (st : State) : (setPort p v st).pc = st.pc := by cases p <;> rfl
@[simp] theorem setPort_dp (p : PortName) (v : PiaPort) (st : State) : (setPort p v st).dp = st.dp := by cases p <;> rfl
@[simp] theorem setPort_cc (p : PortName) (v : PiaPort) (st : State) : (setPort p v st).cc = st.cc := by cases p <;> rfl
@[simp] theorem setPort_nmiArmed (p : PortName) (v : PiaPort) (st : State) : (setPort p v st).nmiArmed = st.nmiArmed := by cases p <;> rfl
@[simp] theorem setPort_nmiPending (p : PortName) (v : PiaPort) (st : State) : (setPort p v st).nmiPending = st.nmiPending := by cases p <;> rfl
@[simp] theorem setPort_wait (p : PortName) (v : PiaPort) (st : State) : (setPort p v st).wait = st.wait := by cases p <;> rfl
@[simp] theorem setPort_nmiLine (p : PortName) (v : PiaPort) (st : State) : (setPort p v st).nmiLine = st.nmiLine := by cases p <;> rfl
@[simp] theorem setPort_firqLine (p : PortName) (v : PiaPort) (st : State) : (setPort p v st).firqLine = st.firqLine := by cases p <;> rfl
@[simp] theorem setPort_irqLine (p : PortName) (v : PiaPort) (st : State) : (setPort p v st).irqLine = st.irqLine := by cases p <;> rfl
@[simp] theorem setPort_mem (p : PortName) (v : PiaPort) (st : State) : (setPort p v st).mem = st.mem := by cases p <;> rfl
@[simp] theorem setPort_memMap (p : PortName) (v : PiaPort) (st : State) : (setPort p v st).memMap = st.memMap := by cases p <;> rfl
@[simp] theorem setPort_ptm (p : PortName) (v : PiaPort) (st : State) : (setPort p v st).ptm = st.ptm := by cases p <;> rfl
@[simp] theorem setPort_keys (p : PortName) (v : PiaPort) (st : State) : (setPort p v st).keys = st.keys := by cases p <;> rfl
@[simp] theorem setPort_between (p : PortName) (v : PiaPort) (st : State) : (setPort p v st).between = st.between := by cases p <;> rfl
@[simp] theorem setPort_display (p : PortName) (v : PiaPort) (st : State) : (setPort p v st).display = st.display := by cases p <;> rfl
@[simp] theorem setPort_inputs (p : PortName) (v : PiaPort) (st : State) : (setPort p v st).inputs = st.inputs := by cases p <;> rfl
@[simp] theorem setPort_draws (p : PortName) (v : PiaPort) (st : State) : (setPort p v st).draws = st.draws := by cases p <;> rfl

@[simp] theorem setAcc_x (r : Acc) (v : Byte) (st : State) : (setAcc r v st).x = st.x := by cases r <;> rfl
@[simp] theorem setAcc_y (r : Acc) (v : Byte) (st : State) : (setAcc r v st).y = st.y := by cases r <;> rfl
@[simp] theorem setAcc_u (r : Acc) (v : Byte) (st : State) : (setAcc r v st).u = st.u := by cases r <;> rfl
@[simp] theorem setAcc_s (r : Acc) (v : Byte) (st : State) : (setAcc r v st).s = st.s := by cases r <;> rfl
@[simp] theorem setAcc_pc (r : Acc) (v : Byte) (st : State) : (setAcc r v st).pc = st.pc := by cases r <;> rfl
@[simp] theorem setAcc_dp (r : Acc) (v : Byte) (st : State) : (setAcc r v st).dp = st.dp := by cases r <;> rfl
@[simp] theorem setAcc_cc (r : Acc) (v : Byte) (st : State) : (setAcc r v st).cc = st.cc := by cases r <;> rfl
@[simp] theorem setAcc_nmiArmed (r : Acc) (v : Byte) (st : State) : (setAcc r v st).nmiArmed = st.nmiArmed := by cases r <;> rfl
@[simp] theorem setAcc_nmiPending (r : Acc) (v : Byte) (st : State) : (setAcc r v st).nmiPending = st.nmiPending := by cases r <;> rfl
@[simp] theorem setAcc_wait (r : Acc) (v : Byte) (st : State) : (setAcc r v st).wait = st.wait := by cases r <;> rfl
@[simp] theorem setAcc_nmiLine (r : Acc) (v : Byte) (st : State) : (setAcc r v st).nmiLine = st.nmiLine := by cases r <;> rfl
@[simp] theorem setAcc_firqLine (r : Acc) (v : Byte) (st : State) : (setAcc r v st).firqLine = st.firqLine := by cases r <;> rfl
@[simp] theorem setAcc_irqLine (r : Acc) (v : Byte) (st : State) : (setAcc r v st).irqLine = st.irqLine := by cases r <;> rfl
@[simp] theorem setAcc_mem (r : Acc) (v : Byte) (st : State) : (setAcc r v st).mem = st.mem := by cases r <;> rfl
@[simp] theorem setAcc_memMap (r : Acc) (v : Byte) (st : State) : (setAcc r v st).memMap = st.memMap := by cases r <;> rfl
@[simp] theorem setAcc_pia (r : Acc) (v : Byte) (st : State) : (setAcc r v st).pia = st.pia := by cases r <;> rfl
@[simp] theorem setAcc_ptm (r : Acc) (v : Byte) (st : State) : (setAcc r v st).ptm = st.ptm := by cases r <;> rfl
@[simp] theorem setAcc_keys (r : Acc) (v : Byte) (st : State) : (setAcc r v st).keys = st.keys := by cases r <;> rfl
@[simp] theorem setAcc_between (r : Acc) (v : Byte) (st : State) : (setAcc r v st).between = st.between := by cases r <;> rfl
@[simp] theorem setAcc_display (r : Acc) (v : Byte) (st : State) : (setAcc r v st).display = st.display := by cases r <;> rfl
@[simp] theorem setAcc_inputs (r : Acc) (v : Byte) (st : State) : (setAcc r v st).inputs = st.inputs := by cases r <;> rfl
@[simp] theorem setAcc_draws (r : Acc) (v : Byte) (st : State) : (setAcc r v st).draws = st.draws := by cases r <;> rfl

@[simp] theorem setIdx_a (r : IdxReg) (v : Word) (st : State) : (setIdx r v st).a = st.a := by cases r <;> rfl
@[simp] theorem setIdx_b (r : IdxReg) (v : Word) (st : State) : (setIdx r v st).b = st.b := by cases r <;> rfl
@[simp] theorem setIdx_pc (r : IdxReg) (v : Word) (st : State) : (setIdx r v st).pc = st.pc := by cases r <;> rfl
@[simp] theorem setIdx_dp (r : IdxReg) (v : Word) (st : State) : (setIdx r v st).dp = st.dp := by cases r <;> rfl
@[simp] theorem setIdx_cc (r : IdxReg) (v : Word) (st : State) : (setIdx r v st).cc = st.cc := by cases r <;> rfl
@[simp] theorem setIdx_nmiArmed (r : IdxReg) (v : Word) (st : State) : (setIdx r v st).nmiArmed = st.nmiArmed := by cases r <;> rfl
@[simp] theorem setIdx_nmiPending (r : IdxReg) (v : Word) (st : State) : (setIdx r v st).nmiPending = st.nmiPending := by cases r <;> rfl
@[simp] theorem setIdx_wait (r : IdxReg) (v : Word) (st : State) : (setIdx r v st).wait = st.wait := by cases r <;> rfl
@[simp] theorem setIdx_nmiLine (r : IdxReg) (v : Word) (st : State) : (setIdx r v st).nmiLine = st.nmiLine := by cases r <;> rfl
@[simp] theorem setIdx_firqLine (r : IdxReg) (v : Word) (st : State) : (setIdx r v st).firqLine = st.firqLine := by cases r <;> rfl
@[simp] theorem setIdx_irqLine (r : IdxReg) (v : Word) (st : State) : (setIdx r v st).irqLine = st.irqLine := by cases r <;> rfl
@[simp] theorem setIdx_mem (r : IdxReg) (v : Word) (st : State) : (setIdx r v st).mem = st.mem := by cases r <;> rfl
@[simp] theorem setIdx_memMap (r : IdxReg) (v : Word) (st : State) : (setIdx r v st).memMap = st.memMap := by cases r <;> rfl
@[simp] theorem setIdx_pia (r : IdxReg) (v : Word) (st : State) : (setIdx r v st).pia = st.pia := by cases r <;> rfl
@[simp] theorem setIdx_ptm (r : IdxReg) (v : Word) (st : State) : (setIdx r v st).ptm = st.ptm := by cases r <;> rfl
@[simp] theorem setIdx_keys (r : IdxReg) (v : Word) (st : State) : (setIdx r v st).keys = st.keys := by cases r <;> rfl
@[simp] theorem setIdx_between (r : IdxReg) (v : Word) (st : State) : (setIdx r v st).between = st.between := by cases r <;> rfl
@[simp] theorem setIdx_display (r : IdxReg) (v : Word) (st : State) : (setIdx r v st).display = st.display := by cases r <;> rfl
@[simp] theorem setIdx_inputs (r : IdxReg) (v : Word) (st : State) : (setIdx r v st).inputs = st.inputs := by cases r <;> rfl
@[simp] theorem setIdx_draws (r : IdxReg) (v : Word) (st : State) : (setIdx r v st).draws = st.draws := by cases r <;> rfl

@[simp] theorem setSp_a (p : StackPtr) (v : Word) (st : State) : (setSp p v st).a = st.a := by cases p <;> rfl
@[simp] theorem setSp_b (p : StackPtr) (v : Word) (st : State) : (setSp p v st).b = st.b := by cases p <;> rfl
@[simp] theorem setSp_x (p : StackPtr) (v : Word) (st : State) : (setSp p v st).x = st.x := by cases p <;> rfl
@[simp] theorem setSp_y (p : StackPtr) (v : Word) (st : State) : (setSp p v st).y = st.y := by cases p <;> rfl
@[simp] theorem setSp_pc (p : StackPtr) (v : Word) (st : State) : (setSp p v st).pc = st.pc := by cases p <;> rfl
@[simp] theorem setSp_dp (p : StackPtr) (v : Word) (st : State) : (setSp p v st).dp = st.dp := by cases p <;> rfl
@[simp] theorem setSp_cc (p : StackPtr) (v : Word) (st : State) : (setSp p v st).cc = st.cc := by cases p <;> rfl
@[simp] theorem setSp_nmiArmed (p : StackPtr) (v : Word) (st : State) : (setSp p v st).nmiArmed = st.nmiArmed := by cases p <;> rfl
@[simp] theorem setSp_nmiPending (p : StackPtr) (v : Word) (st : State) : (setSp p v st).nmiPending = st.nmiPending := by cases p <;> rfl
@[simp] theorem setSp_wait (p : StackPtr) (v : Word) (st : State) : (setSp p v st).wait = st.wait := by cases p <;> rfl
@[simp] theorem setSp_nmiLine (p : StackPtr) (v : Word) (st : State) : (setSp p v st).nmiLine = st.nmiLine := by cases p <;> rfl
@[simp] theorem setSp_firqLine (p : StackPtr) (v : Word) (st : State) : (setSp p v st).firqLine = st.firqLine := by cases p <;> rfl
@[simp] theorem setSp_irqLine (p : StackPtr) (v : Word) (st : State) : (setSp p v st).irqLine = st.irqLine := by cases p <;> rfl
@[simp] theorem setSp_mem (p : StackPtr) (v : Word) (st : State) : (setSp p v st).mem = st.mem := by cases p <;> rfl
@[simp] theorem setSp_memMap (p : StackPtr) (v : Word) (st : State) : (setSp p v st).memMap = st.memMap := by cases p <;> rfl
@[simp] theorem setSp_pia (p : StackPtr) (v : Word) (st : State) : (setSp p v st).pia = st.pia := by cases p <;> rfl
@[simp] theorem setSp_ptm (p : StackPtr) (v : Word) (st : State) : (setSp p v st).ptm = st.ptm := by cases p <;> rfl
@[simp] theorem setSp_keys (p : StackPtr) (v : Word) (st : State) : (setSp p v st).keys = st.keys := by cases p <;> rfl
@[simp] theorem setSp_between (p : StackPtr) (v : Word) (st : State) : (setSp p v st).between = st.between := by cases p <;> rfl
@[simp] theorem setSp_display (p : StackPtr) (v : Word) (st : State) : (setSp p v st).display = st.display := by cases p <;> rfl
@[simp] theorem setSp_inputs (p : StackPtr) (v : Word) (st : State) : (setSp p v st).inputs = st.inputs := by cases p <;> rfl
@[simp] theorem setSp_draws (p : StackPtr) (v : Word) (st : State) : (setSp p v st).draws = st.draws := by cases p <;> rfl

@[simp] theorem loadReg16_pc (r : Reg16) (v : Word) (st : State) : (loadReg16 r v st).pc = st.pc := by cases r <;> rfl
@[simp] theorem loadReg16_dp (r : Reg16) (v : Word) (st : State) : (loadReg16 r v st).dp = st.dp := by cases r <;> rfl
@[simp] theorem loadReg16_cc (r : Reg16) (v : Word) (st : State) : (loadReg16 r v st).cc = st.cc := by cases r <;> rfl
@[simp] theorem loadReg16_nmiPending (r : Reg16) (v : Word) (st : State) : (loadReg16 r v st).nmiPending = st.nmiPending := by cases r <;> rfl
@[simp] theorem loadReg16_wait (r : Reg16) (v : Word) (st : State) : (loadReg16 r v st).wait = st.wait := by cases r <;> rfl
@[simp] theorem loadReg16_nmiLine (r : Reg16) (v : Word) (st : State) : (loadReg16 r v st).nmiLine = st.nmiLine := by cases r <;> rfl
@[simp] theorem loadReg16_firqLine (r : Reg16) (v : Word) (st : State) : (loadReg16 r v st).firqLine = st.firqLine := by cases r <;> rfl
@[simp] theorem loadReg16_irqLine (r : Reg16) (v : Word) (st : State) : (loadReg16 r v st).irqLine = st.irqLine := by cases r <;> rfl
@[simp] theorem loadReg16_mem (r : Reg16) (v : Word) (st : State) : (loadReg16 r v st).mem = st.mem := by cases r <;> rfl
@[simp] theorem loadReg16_memMap (r : Reg16) (v : Word) (st : State) : (loadReg16 r v st).memMap = st.memMap := by cases r <;> rfl
@[simp] theorem loadReg16_pia (r : Reg16) (v : Word) (st : State) : (loadReg16 r v st).pia = st.pia := by cases r <;> rfl
@[simp] theorem loadReg16_ptm (r : Reg16) (v : Word) (st : State) : (loadReg16 r v st).ptm = st.ptm := by cases r <;> rfl
@[simp] theorem loadReg16_keys (r : Reg16) (v : Word) (st : State) : (loadReg16 r v st).keys = st.keys := by cases r <;> rfl
@[simp] theorem loadReg16_between (r : Reg16) (v : Word) (st : State) : (loadReg16 r v st).between = st.between := by cases r <;> rfl
@[simp] theorem loadReg16_display (r : Reg16) (v : Word) (st : State) : (loadReg16 r v st).display = st.display := by cases r <;> rfl
@[simp] theorem loadReg16_inputs (r : Reg16) (v : Word) (st : State) : (loadReg16 r v st).inputs = st.inputs := by cases r <;> rfl
@[simp] theorem loadReg16_draws (r : Reg16) (v : Word) (st : State) : (loadReg16 r v st).draws = st.draws := by cases r <;> rfl

@[simp] theorem getAcc_setAcc (r : Acc) (v : Byte) (st : State) : getAcc r (setAcc r v st) = v := by cases r <;> rfl

@[simp] theorem getIdx_setIdx (r : IdxReg) (v : Word) (st : State) : getIdx r (setIdx r v st) = v := by cases r <;> rfl

@[simp] theorem getSp_setSp (p : StackPtr) (v : Word) (st : State) : getSp p (setSp p v st) = v := by cases p <;> rfl

end Sys2Proof.Machine
end

