-- ==== Sys2Proof/Laws/Bus.lean ====
section
/-! SUPPORT. What the bus operations can do: the fields they leave alone, one lemma each, and how a byte of RAM reads after a
write. -/

namespace Sys2Proof.Machine

/-! ## The devices' own changes -/

/-- An event changes only the devices that the outside can reach. -/
theorem applyEvent_frame (e : DeviceEvent) (st : State) :
    applyEvent e st = { st with pia := (applyEvent e st).pia, ptm := (applyEvent e st).ptm, keys := (applyEvent e st).keys } := by
  cases e <;> try rfl
  all_goals (rename_i p _; cases p <;> rfl)

/-- So do several events. -/
theorem applyEvents_frame (es : List DeviceEvent) (st : State) :
    applyEvents es st =
      { st with pia := (applyEvents es st).pia, ptm := (applyEvents es st).ptm, keys := (applyEvents es st).keys } := by
  have h : ∃ pia ptm keys, applyEvents es st = { st with pia, ptm, keys } := by
    induction es generalizing st with
    | nil => exact ⟨_, _, _, rfl⟩
    | cons e es ih =>
      obtain ⟨pia, ptm, keys, h⟩ := ih (applyEvent e st)
      exact ⟨pia, ptm, keys, by rw [applyEvents, h, applyEvent_frame]⟩
  obtain ⟨_, _, _, h⟩ := h
  rw [h]

/-- What the devices do before an access changes them and what they are still to do. -/
theorem letDevicesMove_frame (st : State) :
    letDevicesMove st = { st with pia := (letDevicesMove st).pia, ptm := (letDevicesMove st).ptm, keys := (letDevicesMove st).keys, between := (letDevicesMove st).between } := by
  unfold letDevicesMove
  split
  · rfl
  · rw [applyEvents_frame]

/-- The same, with the changed fields as values. -/
theorem letDevicesMove_cases (st : State) :
    ∃ pia ptm keys between, letDevicesMove st = { st with pia, ptm, keys, between } := ⟨_, _, _, _, letDevicesMove_frame st⟩

/-- With nothing left to do, the devices stand still. -/
@[simp] theorem letDevicesMove_none {st : State} (h : st.between = []) : letDevicesMove st = st := by simp [letDevicesMove, h]

@[simp] theorem letDevicesMove_a (st : State) : (letDevicesMove st).a = st.a := by
  rw [letDevicesMove_frame]
@[simp] theorem letDevicesMove_b (st : State) : (letDevicesMove st).b = st.b := by
  rw [letDevicesMove_frame]
@[simp] theorem letDevicesMove_x (st : State) : (letDevicesMove st).x = st.x := by
  rw [letDevicesMove_frame]
@[simp] theorem letDevicesMove_y (st : State) : (letDevicesMove st).y = st.y := by
  rw [letDevicesMove_frame]
@[simp] theorem letDevicesMove_u (st : State) : (letDevicesMove st).u = st.u := by
  rw [letDevicesMove_frame]
@[simp] theorem letDevicesMove_s (st : State) : (letDevicesMove st).s = st.s := by
  rw [letDevicesMove_frame]
@[simp] theorem letDevicesMove_pc (st : State) : (letDevicesMove st).pc = st.pc := by
  rw [letDevicesMove_frame]
@[simp] theorem letDevicesMove_dp (st : State) : (letDevicesMove st).dp = st.dp := by
  rw [letDevicesMove_frame]
@[simp] theorem letDevicesMove_cc (st : State) : (letDevicesMove st).cc = st.cc := by
  rw [letDevicesMove_frame]
@[simp] theorem letDevicesMove_nmiArmed (st : State) : (letDevicesMove st).nmiArmed = st.nmiArmed := by
  rw [letDevicesMove_frame]
@[simp] theorem letDevicesMove_nmiPending (st : State) : (letDevicesMove st).nmiPending = st.nmiPending := by
  rw [letDevicesMove_frame]
@[simp] theorem letDevicesMove_wait (st : State) : (letDevicesMove st).wait = st.wait := by
  rw [letDevicesMove_frame]
@[simp] theorem letDevicesMove_nmiLine (st : State) : (letDevicesMove st).nmiLine = st.nmiLine := by
  rw [letDevicesMove_frame]
@[simp] theorem letDevicesMove_firqLine (st : State) : (letDevicesMove st).firqLine = st.firqLine := by
  rw [letDevicesMove_frame]
@[simp] theorem letDevicesMove_irqLine (st : State) : (letDevicesMove st).irqLine = st.irqLine := by
  rw [letDevicesMove_frame]
@[simp] theorem letDevicesMove_mem (st : State) : (letDevicesMove st).mem = st.mem := by
  rw [letDevicesMove_frame]
@[simp] theorem letDevicesMove_memMap (st : State) : (letDevicesMove st).memMap = st.memMap := by
  rw [letDevicesMove_frame]
@[simp] theorem letDevicesMove_display (st : State) : (letDevicesMove st).display = st.display := by
  rw [letDevicesMove_frame]
@[simp] theorem letDevicesMove_inputs (st : State) : (letDevicesMove st).inputs = st.inputs := by
  rw [letDevicesMove_frame]
@[simp] theorem letDevicesMove_draws (st : State) : (letDevicesMove st).draws = st.draws := by
  rw [letDevicesMove_frame]

/-! ## Reads -/

/-- A device read changes only the two devices with side effects and the count of free values. -/
theorem readDevice_frame (d : DeviceReg) (st : State) :
    (readDevice d st).2 = { st with pia := (readDevice d st).2.pia, ptm := (readDevice d st).2.ptm, draws := (readDevice d st).2.draws } := by
  cases d <;> try rfl
  rename_i p
  cases p <;> simp only [readDevice, readPiaData] <;> split <;> rfl

/-- A read changes only the two devices with side effects, what the devices change of their own, and the count of free values. -/
theorem readByte_frame (addr : Word) (st : State) :
    (readByte addr st).2 = { st with pia := (readByte addr st).2.pia, ptm := (readByte addr st).2.ptm, keys := (readByte addr st).2.keys, between := (readByte addr st).2.between, draws := (readByte addr st).2.draws } := by
  unfold readByte
  split
  · rename_i d _
    obtain ⟨_, _, _, _, h⟩ := letDevicesMove_cases st
    rw [h, readDevice_frame]
  all_goals rfl

@[simp] theorem readByte_a (addr : Word) (st : State) : (readByte addr st).2.a = st.a := by
  rw [readByte_frame]
@[simp] theorem readByte_b (addr : Word) (st : State) : (readByte addr st).2.b = st.b := by
  rw [readByte_frame]
@[simp] theorem readByte_x (addr : Word) (st : State) : (readByte addr st).2.x = st.x := by
  rw [readByte_frame]
@[simp] theorem readByte_y (addr : Word) (st : State) : (readByte addr st).2.y = st.y := by
  rw [readByte_frame]
@[simp] theorem readByte_u (addr : Word) (st : State) : (readByte addr st).2.u = st.u := by
  rw [readByte_frame]
@[simp] theorem readByte_s (addr : Word) (st : State) : (readByte addr st).2.s = st.s := by
  rw [readByte_frame]
@[simp] theorem readByte_pc (addr : Word) (st : State) : (readByte addr st).2.pc = st.pc := by
  rw [readByte_frame]
@[simp] theorem readByte_dp (addr : Word) (st : State) : (readByte addr st).2.dp = st.dp := by
  rw [readByte_frame]
@[simp] theorem readByte_cc (addr : Word) (st : State) : (readByte addr st).2.cc = st.cc := by
  rw [readByte_frame]
@[simp] theorem readByte_nmiArmed (addr : Word) (st : State) : (readByte addr st).2.nmiArmed = st.nmiArmed := by
  rw [readByte_frame]
@[simp] theorem readByte_nmiPending (addr : Word) (st : State) : (readByte addr st).2.nmiPending = st.nmiPending := by
  rw [readByte_frame]
@[simp] theorem readByte_wait (addr : Word) (st : State) : (readByte addr st).2.wait = st.wait := by
  rw [readByte_frame]
@[simp] theorem readByte_nmiLine (addr : Word) (st : State) : (readByte addr st).2.nmiLine = st.nmiLine := by
  rw [readByte_frame]
@[simp] theorem readByte_firqLine (addr : Word) (st : State) : (readByte addr st).2.firqLine = st.firqLine := by
  rw [readByte_frame]
@[simp] theorem readByte_irqLine (addr : Word) (st : State) : (readByte addr st).2.irqLine = st.irqLine := by
  rw [readByte_frame]
@[simp] theorem readByte_mem (addr : Word) (st : State) : (readByte addr st).2.mem = st.mem := by
  rw [readByte_frame]
@[simp] theorem readByte_memMap (addr : Word) (st : State) : (readByte addr st).2.memMap = st.memMap := by
  rw [readByte_frame]
@[simp] theorem readByte_display (addr : Word) (st : State) : (readByte addr st).2.display = st.display := by
  rw [readByte_frame]
@[simp] theorem readByte_inputs (addr : Word) (st : State) : (readByte addr st).2.inputs = st.inputs := by
  rw [readByte_frame]

@[simp] theorem readWord_a (addr : Word) (st : State) : (readWord addr st).2.a = st.a := by
  simp [readWord]
@[simp] theorem readWord_b (addr : Word) (st : State) : (readWord addr st).2.b = st.b := by
  simp [readWord]
@[simp] theorem readWord_x (addr : Word) (st : State) : (readWord addr st).2.x = st.x := by
  simp [readWord]
@[simp] theorem readWord_y (addr : Word) (st : State) : (readWord addr st).2.y = st.y := by
  simp [readWord]
@[simp] theorem readWord_u (addr : Word) (st : State) : (readWord addr st).2.u = st.u := by
  simp [readWord]
@[simp] theorem readWord_s (addr : Word) (st : State) : (readWord addr st).2.s = st.s := by
  simp [readWord]
@[simp] theorem readWord_pc (addr : Word) (st : State) : (readWord addr st).2.pc = st.pc := by
  simp [readWord]
@[simp] theorem readWord_dp (addr : Word) (st : State) : (readWord addr st).2.dp = st.dp := by
  simp [readWord]
@[simp] theorem readWord_cc (addr : Word) (st : State) : (readWord addr st).2.cc = st.cc := by
  simp [readWord]
@[simp] theorem readWord_nmiArmed (addr : Word) (st : State) : (readWord addr st).2.nmiArmed = st.nmiArmed := by
  simp [readWord]
@[simp] theorem readWord_nmiPending (addr : Word) (st : State) : (readWord addr st).2.nmiPending = st.nmiPending := by
  simp [readWord]
@[simp] theorem readWord_wait (addr : Word) (st : State) : (readWord addr st).2.wait = st.wait := by
  simp [readWord]
@[simp] theorem readWord_nmiLine (addr : Word) (st : State) : (readWord addr st).2.nmiLine = st.nmiLine := by
  simp [readWord]
@[simp] theorem readWord_firqLine (addr : Word) (st : State) : (readWord addr st).2.firqLine = st.firqLine := by
  simp [readWord]
@[simp] theorem readWord_irqLine (addr : Word) (st : State) : (readWord addr st).2.irqLine = st.irqLine := by
  simp [readWord]
@[simp] theorem readWord_mem (addr : Word) (st : State) : (readWord addr st).2.mem = st.mem := by
  simp [readWord]
@[simp] theorem readWord_memMap (addr : Word) (st : State) : (readWord addr st).2.memMap = st.memMap := by
  simp [readWord]
@[simp] theorem readWord_display (addr : Word) (st : State) : (readWord addr st).2.display = st.display := by
  simp [readWord]
@[simp] theorem readWord_inputs (addr : Word) (st : State) : (readWord addr st).2.inputs = st.inputs := by
  simp [readWord]

/-! ## Writes -/

/-- A device write changes only the two devices with registers and the display. -/
theorem writeDevice_frame (d : DeviceReg) (v : Byte) (st : State) :
    writeDevice d v st = { st with pia := (writeDevice d v st).pia, ptm := (writeDevice d v st).ptm, display := (writeDevice d v st).display } := by
  cases d <;> try rfl
  · rename_i p
    cases p <;> simp only [writeDevice, writePiaData] <;> split <;> rfl
  · rename_i p
    cases p <;> rfl

/-- A write changes only memory, the two devices with registers, the display and what the devices change of their own. -/
theorem writeByte_frame (addr : Word) (v : Byte) (st : State) :
    writeByte addr v st = { st with mem := (writeByte addr v st).mem, pia := (writeByte addr v st).pia, ptm := (writeByte addr v st).ptm, keys := (writeByte addr v st).keys, display := (writeByte addr v st).display, between := (writeByte addr v st).between } := by
  unfold writeByte
  split
  · rename_i d _
    obtain ⟨_, _, _, _, h⟩ := letDevicesMove_cases st
    rw [h, writeDevice_frame]
  all_goals rfl

@[simp] theorem writeByte_a (addr : Word) (v : Byte) (st : State) : (writeByte addr v st).a = st.a := by
  rw [writeByte_frame]
@[simp] theorem writeByte_b (addr : Word) (v : Byte) (st : State) : (writeByte addr v st).b = st.b := by
  rw [writeByte_frame]
@[simp] theorem writeByte_x (addr : Word) (v : Byte) (st : State) : (writeByte addr v st).x = st.x := by
  rw [writeByte_frame]
@[simp] theorem writeByte_y (addr : Word) (v : Byte) (st : State) : (writeByte addr v st).y = st.y := by
  rw [writeByte_frame]
@[simp] theorem writeByte_u (addr : Word) (v : Byte) (st : State) : (writeByte addr v st).u = st.u := by
  rw [writeByte_frame]
@[simp] theorem writeByte_s (addr : Word) (v : Byte) (st : State) : (writeByte addr v st).s = st.s := by
  rw [writeByte_frame]
@[simp] theorem writeByte_pc (addr : Word) (v : Byte) (st : State) : (writeByte addr v st).pc = st.pc := by
  rw [writeByte_frame]
@[simp] theorem writeByte_dp (addr : Word) (v : Byte) (st : State) : (writeByte addr v st).dp = st.dp := by
  rw [writeByte_frame]
@[simp] theorem writeByte_cc (addr : Word) (v : Byte) (st : State) : (writeByte addr v st).cc = st.cc := by
  rw [writeByte_frame]
@[simp] theorem writeByte_nmiArmed (addr : Word) (v : Byte) (st : State) : (writeByte addr v st).nmiArmed = st.nmiArmed := by
  rw [writeByte_frame]
@[simp] theorem writeByte_nmiPending (addr : Word) (v : Byte) (st : State) : (writeByte addr v st).nmiPending = st.nmiPending := by
  rw [writeByte_frame]
@[simp] theorem writeByte_wait (addr : Word) (v : Byte) (st : State) : (writeByte addr v st).wait = st.wait := by
  rw [writeByte_frame]
@[simp] theorem writeByte_nmiLine (addr : Word) (v : Byte) (st : State) : (writeByte addr v st).nmiLine = st.nmiLine := by
  rw [writeByte_frame]
@[simp] theorem writeByte_firqLine (addr : Word) (v : Byte) (st : State) : (writeByte addr v st).firqLine = st.firqLine := by
  rw [writeByte_frame]
@[simp] theorem writeByte_irqLine (addr : Word) (v : Byte) (st : State) : (writeByte addr v st).irqLine = st.irqLine := by
  rw [writeByte_frame]
@[simp] theorem writeByte_memMap (addr : Word) (v : Byte) (st : State) : (writeByte addr v st).memMap = st.memMap := by
  rw [writeByte_frame]
@[simp] theorem writeByte_inputs (addr : Word) (v : Byte) (st : State) : (writeByte addr v st).inputs = st.inputs := by
  rw [writeByte_frame]
@[simp] theorem writeByte_draws (addr : Word) (v : Byte) (st : State) : (writeByte addr v st).draws = st.draws := by
  rw [writeByte_frame]

@[simp] theorem writeWord_a (addr : Word) (v : Word) (st : State) : (writeWord addr v st).a = st.a := by
  simp [writeWord]
@[simp] theorem writeWord_b (addr : Word) (v : Word) (st : State) : (writeWord addr v st).b = st.b := by
  simp [writeWord]
@[simp] theorem writeWord_x (addr : Word) (v : Word) (st : State) : (writeWord addr v st).x = st.x := by
  simp [writeWord]
@[simp] theorem writeWord_y (addr : Word) (v : Word) (st : State) : (writeWord addr v st).y = st.y := by
  simp [writeWord]
@[simp] theorem writeWord_u (addr : Word) (v : Word) (st : State) : (writeWord addr v st).u = st.u := by
  simp [writeWord]
@[simp] theorem writeWord_s (addr : Word) (v : Word) (st : State) : (writeWord addr v st).s = st.s := by
  simp [writeWord]
@[simp] theorem writeWord_pc (addr : Word) (v : Word) (st : State) : (writeWord addr v st).pc = st.pc := by
  simp [writeWord]
@[simp] theorem writeWord_dp (addr : Word) (v : Word) (st : State) : (writeWord addr v st).dp = st.dp := by
  simp [writeWord]
@[simp] theorem writeWord_cc (addr : Word) (v : Word) (st : State) : (writeWord addr v st).cc = st.cc := by
  simp [writeWord]
@[simp] theorem writeWord_nmiArmed (addr : Word) (v : Word) (st : State) : (writeWord addr v st).nmiArmed = st.nmiArmed := by
  simp [writeWord]
@[simp] theorem writeWord_nmiPending (addr : Word) (v : Word) (st : State) : (writeWord addr v st).nmiPending = st.nmiPending := by
  simp [writeWord]
@[simp] theorem writeWord_wait (addr : Word) (v : Word) (st : State) : (writeWord addr v st).wait = st.wait := by
  simp [writeWord]
@[simp] theorem writeWord_nmiLine (addr : Word) (v : Word) (st : State) : (writeWord addr v st).nmiLine = st.nmiLine := by
  simp [writeWord]
@[simp] theorem writeWord_firqLine (addr : Word) (v : Word) (st : State) : (writeWord addr v st).firqLine = st.firqLine := by
  simp [writeWord]
@[simp] theorem writeWord_irqLine (addr : Word) (v : Word) (st : State) : (writeWord addr v st).irqLine = st.irqLine := by
  simp [writeWord]
@[simp] theorem writeWord_memMap (addr : Word) (v : Word) (st : State) : (writeWord addr v st).memMap = st.memMap := by
  simp [writeWord]
@[simp] theorem writeWord_inputs (addr : Word) (v : Word) (st : State) : (writeWord addr v st).inputs = st.inputs := by
  simp [writeWord]
@[simp] theorem writeWord_draws (addr : Word) (v : Word) (st : State) : (writeWord addr v st).draws = st.draws := by
  simp [writeWord]

/-! ## The stacks -/

@[simp] theorem push8_a (p : StackPtr) (v : Byte) (st : State) : (push8 p v st).a = st.a := by
  simp [push8]
@[simp] theorem push8_b (p : StackPtr) (v : Byte) (st : State) : (push8 p v st).b = st.b := by
  simp [push8]
@[simp] theorem push8_x (p : StackPtr) (v : Byte) (st : State) : (push8 p v st).x = st.x := by
  simp [push8]
@[simp] theorem push8_y (p : StackPtr) (v : Byte) (st : State) : (push8 p v st).y = st.y := by
  simp [push8]
@[simp] theorem push8_pc (p : StackPtr) (v : Byte) (st : State) : (push8 p v st).pc = st.pc := by
  simp [push8]
@[simp] theorem push8_dp (p : StackPtr) (v : Byte) (st : State) : (push8 p v st).dp = st.dp := by
  simp [push8]
@[simp] theorem push8_cc (p : StackPtr) (v : Byte) (st : State) : (push8 p v st).cc = st.cc := by
  simp [push8]
@[simp] theorem push8_nmiArmed (p : StackPtr) (v : Byte) (st : State) : (push8 p v st).nmiArmed = st.nmiArmed := by
  simp [push8]
@[simp] theorem push8_nmiPending (p : StackPtr) (v : Byte) (st : State) : (push8 p v st).nmiPending = st.nmiPending := by
  simp [push8]
@[simp] theorem push8_wait (p : StackPtr) (v : Byte) (st : State) : (push8 p v st).wait = st.wait := by
  simp [push8]
@[simp] theorem push8_nmiLine (p : StackPtr) (v : Byte) (st : State) : (push8 p v st).nmiLine = st.nmiLine := by
  simp [push8]
@[simp] theorem push8_firqLine (p : StackPtr) (v : Byte) (st : State) : (push8 p v st).firqLine = st.firqLine := by
  simp [push8]
@[simp] theorem push8_irqLine (p : StackPtr) (v : Byte) (st : State) : (push8 p v st).irqLine = st.irqLine := by
  simp [push8]
@[simp] theorem push8_memMap (p : StackPtr) (v : Byte) (st : State) : (push8 p v st).memMap = st.memMap := by
  simp [push8]
@[simp] theorem push8_inputs (p : StackPtr) (v : Byte) (st : State) : (push8 p v st).inputs = st.inputs := by
  simp [push8]
@[simp] theorem push8_draws (p : StackPtr) (v : Byte) (st : State) : (push8 p v st).draws = st.draws := by
  simp [push8]

@[simp] theorem push16_a (p : StackPtr) (v : Word) (st : State) : (push16 p v st).a = st.a := by
  simp [push16]
@[simp] theorem push16_b (p : StackPtr) (v : Word) (st : State) : (push16 p v st).b = st.b := by
  simp [push16]
@[simp] theorem push16_x (p : StackPtr) (v : Word) (st : State) : (push16 p v st).x = st.x := by
  simp [push16]
@[simp] theorem push16_y (p : StackPtr) (v : Word) (st : State) : (push16 p v st).y = st.y := by
  simp [push16]
@[simp] theorem push16_pc (p : StackPtr) (v : Word) (st : State) : (push16 p v st).pc = st.pc := by
  simp [push16]
@[simp] theorem push16_dp (p : StackPtr) (v : Word) (st : State) : (push16 p v st).dp = st.dp := by
  simp [push16]
@[simp] theorem push16_cc (p : StackPtr) (v : Word) (st : State) : (push16 p v st).cc = st.cc := by
  simp [push16]
@[simp] theorem push16_nmiArmed (p : StackPtr) (v : Word) (st : State) : (push16 p v st).nmiArmed = st.nmiArmed := by
  simp [push16]
@[simp] theorem push16_nmiPending (p : StackPtr) (v : Word) (st : State) : (push16 p v st).nmiPending = st.nmiPending := by
  simp [push16]
@[simp] theorem push16_wait (p : StackPtr) (v : Word) (st : State) : (push16 p v st).wait = st.wait := by
  simp [push16]
@[simp] theorem push16_nmiLine (p : StackPtr) (v : Word) (st : State) : (push16 p v st).nmiLine = st.nmiLine := by
  simp [push16]
@[simp] theorem push16_firqLine (p : StackPtr) (v : Word) (st : State) : (push16 p v st).firqLine = st.firqLine := by
  simp [push16]
@[simp] theorem push16_irqLine (p : StackPtr) (v : Word) (st : State) : (push16 p v st).irqLine = st.irqLine := by
  simp [push16]
@[simp] theorem push16_memMap (p : StackPtr) (v : Word) (st : State) : (push16 p v st).memMap = st.memMap := by
  simp [push16]
@[simp] theorem push16_inputs (p : StackPtr) (v : Word) (st : State) : (push16 p v st).inputs = st.inputs := by
  simp [push16]
@[simp] theorem push16_draws (p : StackPtr) (v : Word) (st : State) : (push16 p v st).draws = st.draws := by
  simp [push16]

@[simp] theorem pull8_a (p : StackPtr) (st : State) : (pull8 p st).2.a = st.a := by
  simp [pull8]
@[simp] theorem pull8_b (p : StackPtr) (st : State) : (pull8 p st).2.b = st.b := by
  simp [pull8]
@[simp] theorem pull8_x (p : StackPtr) (st : State) : (pull8 p st).2.x = st.x := by
  simp [pull8]
@[simp] theorem pull8_y (p : StackPtr) (st : State) : (pull8 p st).2.y = st.y := by
  simp [pull8]
@[simp] theorem pull8_pc (p : StackPtr) (st : State) : (pull8 p st).2.pc = st.pc := by
  simp [pull8]
@[simp] theorem pull8_dp (p : StackPtr) (st : State) : (pull8 p st).2.dp = st.dp := by
  simp [pull8]
@[simp] theorem pull8_cc (p : StackPtr) (st : State) : (pull8 p st).2.cc = st.cc := by
  simp [pull8]
@[simp] theorem pull8_nmiArmed (p : StackPtr) (st : State) : (pull8 p st).2.nmiArmed = st.nmiArmed := by
  simp [pull8]
@[simp] theorem pull8_nmiPending (p : StackPtr) (st : State) : (pull8 p st).2.nmiPending = st.nmiPending := by
  simp [pull8]
@[simp] theorem pull8_wait (p : StackPtr) (st : State) : (pull8 p st).2.wait = st.wait := by
  simp [pull8]
@[simp] theorem pull8_nmiLine (p : StackPtr) (st : State) : (pull8 p st).2.nmiLine = st.nmiLine := by
  simp [pull8]
@[simp] theorem pull8_firqLine (p : StackPtr) (st : State) : (pull8 p st).2.firqLine = st.firqLine := by
  simp [pull8]
@[simp] theorem pull8_irqLine (p : StackPtr) (st : State) : (pull8 p st).2.irqLine = st.irqLine := by
  simp [pull8]
@[simp] theorem pull8_mem (p : StackPtr) (st : State) : (pull8 p st).2.mem = st.mem := by
  simp [pull8]
@[simp] theorem pull8_memMap (p : StackPtr) (st : State) : (pull8 p st).2.memMap = st.memMap := by
  simp [pull8]
@[simp] theorem pull8_display (p : StackPtr) (st : State) : (pull8 p st).2.display = st.display := by
  simp [pull8]
@[simp] theorem pull8_inputs (p : StackPtr) (st : State) : (pull8 p st).2.inputs = st.inputs := by
  simp [pull8]

@[simp] theorem pull16_a (p : StackPtr) (st : State) : (pull16 p st).2.a = st.a := by
  simp [pull16]
@[simp] theorem pull16_b (p : StackPtr) (st : State) : (pull16 p st).2.b = st.b := by
  simp [pull16]
@[simp] theorem pull16_x (p : StackPtr) (st : State) : (pull16 p st).2.x = st.x := by
  simp [pull16]
@[simp] theorem pull16_y (p : StackPtr) (st : State) : (pull16 p st).2.y = st.y := by
  simp [pull16]
@[simp] theorem pull16_pc (p : StackPtr) (st : State) : (pull16 p st).2.pc = st.pc := by
  simp [pull16]
@[simp] theorem pull16_dp (p : StackPtr) (st : State) : (pull16 p st).2.dp = st.dp := by
  simp [pull16]
@[simp] theorem pull16_cc (p : StackPtr) (st : State) : (pull16 p st).2.cc = st.cc := by
  simp [pull16]
@[simp] theorem pull16_nmiArmed (p : StackPtr) (st : State) : (pull16 p st).2.nmiArmed = st.nmiArmed := by
  simp [pull16]
@[simp] theorem pull16_nmiPending (p : StackPtr) (st : State) : (pull16 p st).2.nmiPending = st.nmiPending := by
  simp [pull16]
@[simp] theorem pull16_wait (p : StackPtr) (st : State) : (pull16 p st).2.wait = st.wait := by
  simp [pull16]
@[simp] theorem pull16_nmiLine (p : StackPtr) (st : State) : (pull16 p st).2.nmiLine = st.nmiLine := by
  simp [pull16]
@[simp] theorem pull16_firqLine (p : StackPtr) (st : State) : (pull16 p st).2.firqLine = st.firqLine := by
  simp [pull16]
@[simp] theorem pull16_irqLine (p : StackPtr) (st : State) : (pull16 p st).2.irqLine = st.irqLine := by
  simp [pull16]
@[simp] theorem pull16_mem (p : StackPtr) (st : State) : (pull16 p st).2.mem = st.mem := by
  simp [pull16]
@[simp] theorem pull16_memMap (p : StackPtr) (st : State) : (pull16 p st).2.memMap = st.memMap := by
  simp [pull16]
@[simp] theorem pull16_display (p : StackPtr) (st : State) : (pull16 p st).2.display = st.display := by
  simp [pull16]
@[simp] theorem pull16_inputs (p : StackPtr) (st : State) : (pull16 p st).2.inputs = st.inputs := by
  simp [pull16]

@[simp] theorem getSp_writeByte (p : StackPtr) (addr : Word) (v : Byte) (st : State) :
    getSp p (writeByte addr v st) = getSp p st := by cases p <;> simp [getSp]

@[simp] theorem getSp_readByte (p : StackPtr) (addr : Word) (st : State) : getSp p (readByte addr st).2 = getSp p st := by
  cases p <;> simp [getSp]

@[simp] theorem getSp_push8 (p : StackPtr) (v : Byte) (st : State) : getSp p (push8 p v st) = getSp p st - 1 := by simp [push8]

@[simp] theorem getSp_push16 (p : StackPtr) (v : Word) (st : State) : getSp p (push16 p v st) = getSp p st - 2 := by
  simp only [push16, getSp_push8]
  bv_omega

@[simp] theorem getSp_pull8 (p : StackPtr) (st : State) : getSp p (pull8 p st).2 = getSp p st + 1 := by simp [pull8]

@[simp] theorem getSp_pull16 (p : StackPtr) (st : State) : getSp p (pull16 p st).2 = getSp p st + 2 := by
  simp only [pull16, getSp_pull8]
  bv_omega

/-! ## RAM -/

/-- A write in RAM stores the byte and nothing else. -/
theorem writeByte_ram {addr : Word} {st : State} (v : Byte) (h : busTarget addr st = .memory .ram) :
    writeByte addr v st = { st with mem := st.mem.put addr.toNat v } := by simp [writeByte, h]

/-- A read in RAM or ROM answers the byte held there and changes nothing. -/
theorem readByte_cell {addr : Word} {st : State} (h : busTarget addr st = .memory .ram ∨ busTarget addr st = .memory .rom) :
    readByte addr st = (cellByte addr st, st) := by
  rcases h with h | h <;> simp [readByte, h]

/-- What answers an access depends on MEM_MAP only. -/
theorem busTarget_congr {st t : State} (addr : Word) (h : t.memMap = st.memMap) : busTarget addr t = busTarget addr st := by
  simp [busTarget, h]

@[simp] theorem busTarget_writeByte (a addr : Word) (v : Byte) (st : State) :
    busTarget a (writeByte addr v st) = busTarget a st := busTarget_congr a (by simp)

@[simp] theorem busTarget_readByte (a addr : Word) (st : State) : busTarget a (readByte addr st).2 = busTarget a st :=
  busTarget_congr a (by simp)

@[simp] theorem busTarget_setSp (a : Word) (p : StackPtr) (v : Word) (st : State) :
    busTarget a (setSp p v st) = busTarget a st := busTarget_congr a (by simp)

/-- The byte an address holds depends on memory and MEM_MAP only. -/
theorem cellByte_congr {st t : State} (addr : Word) (hm : t.mem = st.mem) (h : t.memMap = st.memMap) :
    cellByte addr t = cellByte addr st := by simp [cellByte, hm, h]

/-- After a write in RAM the address holds the byte written. -/
theorem cellByte_writeByte_same {addr : Word} {st : State} (v : Byte) (h : busTarget addr st = .memory .ram) :
    cellByte addr (writeByte addr v st) = v := by
  simp [cellByte, writeByte_ram v h, Memory.get_put_same]

/-- A write leaves the byte at every other address alone. -/
theorem cellByte_writeByte_other {a addr : Word} (v : Byte) (st : State) (h : a ≠ addr) :
    cellByte a (writeByte addr v st) = cellByte a st := by
  have hn : a.toNat ≠ addr.toNat := fun e => h (BitVec.eq_of_toNat_eq e)
  by_cases hr : busTarget addr st = .memory .ram
  · simp [cellByte, writeByte_ram v hr, Memory.get_put_other v st.mem hn]
  · refine cellByte_congr a ?_ (by simp)
    unfold writeByte
    split
    · rw [writeDevice_frame]; exact letDevicesMove_mem st
    · rename_i h'; exact absurd h' hr
    all_goals rfl

end Sys2Proof.Machine
end

