-- ==== Sys2Proof/Laws/Fetch.lean ====
section
/-! SUPPORT. The fetch: five bytes always decide what the decoder answers, and reading the bytes of an instruction one by one from
RAM or ROM finds it. -/

namespace Sys2Proof

theorem mapDecoded_ne_needMore {α β : Type} {f : α → β} {d : Decoded α} (h : d ≠ .needMore) :
    mapDecoded f d ≠ .needMore := by
  cases d <;> simp_all [mapDecoded]

theorem decodeSubmode_three (n : Nat) (r : IdxReg) (ind : Bool) (b c : Byte) (rest : List Byte) :
    decodeSubmode n r ind (b :: c :: rest) ≠ .needMore := by
  unfold decodeSubmode
  split <;> first
    | (split <;> simp [mapDecoded, decodeWord])
    | simp [mapDecoded, decodeWord, decodeByte]

theorem decodeForm_three (form : Form) (a b c : Byte) (rest : List Byte) :
    decodeForm form (a :: b :: c :: rest) ≠ .needMore := by
  have hi : decodeIndexed (a :: b :: c :: rest) ≠ .needMore := by
    simp only [decodeIndexed]
    split
    · exact decodeSubmode_three _ _ _ _ _ _
    · simp
  cases form with
  | indexed f => exact mapDecoded_ne_needMore hi
  | lea f => exact mapDecoded_ne_needMore hi
  | regPair f =>
    simp only [decodeForm, decodeRegPair]
    split
    · split <;> simp
    · simp
  | _ => simp [decodeForm, mapDecoded, decodeByte, decodeWord]

/-- Five bytes are always enough (30_encoding R60). -/
theorem decode_five_bytes (a b c d e : Byte) (rest : List Byte) : decode (a :: b :: c :: d :: e :: rest) ≠ .needMore := by
  simp only [decode]
  split
  · simp only [decodePage]; split
    · exact decodeForm_three _ _ _ _ _
    · simp
  · split
    · simp only [decodePage]; split
      · exact decodeForm_three _ _ _ _ _
      · simp
    · simp only [decodePage]; split
      · exact decodeForm_three _ _ _ _ _
      · simp

end Sys2Proof

namespace Sys2Proof.Machine

theorem fetchMore_ne_needMore : ∀ (n : Nat) (bytes : List Byte) (st : State), 5 ≤ n + bytes.length →
    (fetchMore n bytes st).1 ≠ .needMore
  | 0, bytes, st, h => by
    rcases bytes with _ | ⟨a, _ | ⟨b, _ | ⟨c, _ | ⟨d, _ | ⟨e, rest⟩⟩⟩⟩⟩ <;> simp at h
    exact decode_five_bytes a b c d e rest
  | n + 1, bytes, st, h => by
    unfold fetchMore
    split
    · exact fetchMore_ne_needMore n _ _ (by simp; omega)
    · simpa using ‹_›

/-- The fetch always finds an instruction or a rejection. -/
theorem fetch_ne_needMore (st : State) : (fetch st).1 ≠ .needMore := fetchMore_ne_needMore 5 [] st (by decide)

end Sys2Proof.Machine
end

