-- ==== Sys2Proof/Laws/Invariant.lean ====
section
/-! SUPPORT. Every shared operation keeps the relations of `Inv`. -/

namespace Sys2Proof.Machine

/-- A state that agrees on the four fields `Inv` reads. -/
theorem Inv.of_eq {s t : State} (h : Inv s) (hm : t.mem = s.mem) (hp : t.nmiPending = s.nmiPending)
    (ha : t.nmiArmed = s.nmiArmed) (ht : t.ptm = s.ptm) : Inv t :=
  ⟨hm ▸ h.memory, by rw [hp, ha]; exact h.nmi, ht ▸ h.timers⟩

/-- A state in which NMI has been armed. -/
theorem Inv.of_armed {s t : State} (h : Inv s) (hm : t.mem = s.mem) (ha : t.nmiArmed = true) (ht : t.ptm = s.ptm) : Inv t :=
  ⟨hm ▸ h.memory, fun _ => ha, ht ▸ h.timers⟩

/-! ## The MC6840 -/

theorem ptmQuiet_setTimer {t : TimerNo} {v : Timer} {p : Ptm} (h : ptmQuiet p = true)
    (hc : v.ctrl = (timerOf t p).ctrl ∨ t ≠ .t1) (hi : v.irq = true → (timerOf t p).irq = true) :
    ptmQuiet (setTimer t v p) = true := by
  simp only [ptmQuiet, ptmHeld, Bool.or_eq_true, Bool.not_eq_true', Bool.or_eq_false_iff] at h ⊢
  cases t <;> simp only [setTimer, timerOf] at hc hi ⊢
  · rcases hc with hc | hc
    · rw [hc]
      rcases h with h | ⟨⟨h1, h2⟩, h3⟩
      · exact .inl h
      · exact .inr ⟨⟨by cases hv : v.irq <;> simp_all, h2⟩, h3⟩
    · exact absurd rfl hc
  · rcases h with h | ⟨⟨h1, h2⟩, h3⟩
    · exact .inl h
    · exact .inr ⟨⟨h1, by cases hv : v.irq <;> simp_all⟩, h3⟩
  · rcases h with h | ⟨⟨h1, h2⟩, h3⟩
    · exact .inl h
    · exact .inr ⟨⟨h1, h2⟩, by cases hv : v.irq <;> simp_all⟩

theorem ptmQuiet_readStatus {p : Ptm} (h : ptmQuiet p = true) : ptmQuiet (readStatus p).2 = true := h

theorem ptmQuiet_readCounterMsb {t : TimerNo} {p : Ptm} (h : ptmQuiet p = true) : ptmQuiet (readCounterMsb t p).2 = true :=
  ptmQuiet_setTimer (t := t) h (.inl rfl) (fun h' => (Bool.and_eq_true_iff.mp h').1)

theorem ptmQuiet_writeControl13 {v : Byte} {p : Ptm} (h : ptmQuiet p = true) : ptmQuiet (writeControl13 v p) = true := by
  unfold writeControl13
  split
  · split
    · rename_i h0
      simp [ptmQuiet, mapTimers, setTimer, clearTimerIrq, presetTimer]
    · rename_i h0
      have hh : ptmHeld (setTimer .t1 { p.timer1 with ctrl := v } p) = false := Bool.eq_false_iff.mpr h0
      simp [ptmQuiet, hh]
  · exact ptmQuiet_setTimer (t := .t3) h (.inr (by decide)) id

theorem ptmQuiet_writeLatch {t : TimerNo} {v : Byte} {p : Ptm} (h : ptmQuiet p = true) : ptmQuiet (writeLatch t v p) = true :=
  ptmQuiet_setTimer h (.inl rfl) (by simp [clearTimerIrq])

theorem ptmHeld_countTo {t : TimerNo} {v : Word} {ends : Bool} {p : Ptm} : ptmHeld (countTo t v ends p) = ptmHeld p := by
  cases t <;> rfl

/-- Timers that are not held may show a flag. -/
theorem ptmQuiet_of_running {p : Ptm} (h : ptmHeld p = false) : ptmQuiet p = true := by simp [ptmQuiet, h]

theorem ptmQuiet_clockTimer {t : TimerNo} {c : ClockSource} {v : Word} {ends : Bool} {p : Ptm} (h : ptmQuiet p = true) :
    ptmQuiet (clockTimer t c v ends p) = true := by
  unfold clockTimer
  split
  · rename_i hr
    have hp : ptmHeld p = false := by
      simp only [clockReaches, Bool.and_eq_true, Bool.not_eq_true'] at hr
      exact hr.1.1
    split
    · dsimp only
      split
      · exact ptmQuiet_of_running (ptmHeld_countTo.trans hp)
      · exact ptmQuiet_of_running hp
    · exact ptmQuiet_of_running (ptmHeld_countTo.trans hp)
  · exact h

/-! ## The bus -/

theorem applyEvent_inv {e : DeviceEvent} {st : State} (h : Inv st) : Inv (applyEvent e st) := by
  cases e
  case portPins p _ => cases p <;> exact ⟨h.memory, h.nmi, h.timers⟩
  case controlLine1 p _ => cases p <;> exact ⟨h.memory, h.nmi, h.timers⟩
  case controlLine2 p _ => cases p <;> exact ⟨h.memory, h.nmi, h.timers⟩
  case timerClock => exact ⟨h.memory, h.nmi, ptmQuiet_clockTimer h.timers⟩
  case gate3 => exact ⟨h.memory, h.nmi, h.timers⟩
  case keyRow => exact ⟨h.memory, h.nmi, h.timers⟩

theorem applyEvents_inv {es : List DeviceEvent} {st : State} (h : Inv st) : Inv (applyEvents es st) := by
  induction es generalizing st with
  | nil => exact h
  | cons e es ih => exact ih (applyEvent_inv h)

theorem letDevicesMove_inv {st : State} (h : Inv st) : Inv (letDevicesMove st) := by
  unfold letDevicesMove
  split
  · exact h
  · exact applyEvents_inv ⟨h.memory, h.nmi, h.timers⟩

theorem readDevice_inv {d : DeviceReg} {st : State} (h : Inv st) : Inv (readDevice d st).2 := by
  cases d
  case piaData p => rw [readDevice_frame]; cases p <;> exact ⟨h.memory, h.nmi, by
      simp only [readDevice, readPiaData]; split <;> exact h.timers⟩
  case ptmControl2 => exact ⟨h.memory, h.nmi, ptmQuiet_readStatus h.timers⟩
  case ptmMsb t => exact ⟨h.memory, h.nmi, ptmQuiet_readCounterMsb h.timers⟩
  all_goals exact ⟨h.memory, h.nmi, h.timers⟩

theorem readByte_inv {addr : Word} {st : State} (h : Inv st) : Inv (readByte addr st).2 := by
  unfold readByte
  split
  · exact readDevice_inv (letDevicesMove_inv h)
  all_goals exact ⟨h.memory, h.nmi, h.timers⟩

theorem readWord_inv {addr : Word} {st : State} (h : Inv st) : Inv (readWord addr st).2 := readByte_inv (readByte_inv h)

theorem writeDevice_inv {d : DeviceReg} {v : Byte} {st : State} (h : Inv st) : Inv (writeDevice d v st) := by
  cases d
  case piaData p => cases p <;> simp only [writeDevice, writePiaData] <;> split <;> exact ⟨h.memory, h.nmi, h.timers⟩
  case piaControl p => cases p <;> exact ⟨h.memory, h.nmi, h.timers⟩
  case ptmControl13 => exact ⟨h.memory, h.nmi, ptmQuiet_writeControl13 h.timers⟩
  case ptmControl2 => exact ⟨h.memory, h.nmi, ptmQuiet_setTimer (t := .t2) h.timers (.inr (by decide)) id⟩
  case ptmLsb t => exact ⟨h.memory, h.nmi, ptmQuiet_writeLatch h.timers⟩
  all_goals exact ⟨h.memory, h.nmi, h.timers⟩

theorem writeByte_inv {addr : Word} {v : Byte} {st : State} (h : Inv st) : Inv (writeByte addr v st) := by
  unfold writeByte
  split
  · exact writeDevice_inv (letDevicesMove_inv h)
  · exact ⟨Memory.wf_put h.memory addr.isLt, h.nmi, h.timers⟩
  all_goals exact h

theorem writeWord_inv {addr : Word} {v : Word} {st : State} (h : Inv st) : Inv (writeWord addr v st) :=
  writeByte_inv (writeByte_inv h)

theorem drawByte_inv {st : State} (h : Inv st) : Inv (drawByte st).2 := ⟨h.memory, h.nmi, h.timers⟩

theorem drawBit_inv {st : State} (h : Inv st) : Inv (drawBit st).2 := ⟨h.memory, h.nmi, h.timers⟩

/-! ## Registers and stacks -/

theorem setAcc_inv {r : Acc} {v : Byte} {st : State} (h : Inv st) : Inv (setAcc r v st) := by
  cases r <;> exact ⟨h.memory, h.nmi, h.timers⟩

theorem setIdx_inv {r : IdxReg} {v : Word} {st : State} (h : Inv st) : Inv (setIdx r v st) := by
  cases r <;> exact ⟨h.memory, h.nmi, h.timers⟩

theorem setSp_inv {p : StackPtr} {v : Word} {st : State} (h : Inv st) : Inv (setSp p v st) := by
  cases p <;> exact ⟨h.memory, h.nmi, h.timers⟩

theorem loadS_inv {v : Word} {st : State} (h : Inv st) : Inv (loadS v st) := ⟨h.memory, fun _ => rfl, h.timers⟩

theorem loadReg16_inv {r : Reg16} {v : Word} {st : State} (h : Inv st) : Inv (loadReg16 r v st) := by
  cases r <;> first | exact loadS_inv h | exact ⟨h.memory, h.nmi, h.timers⟩

theorem setReg_inv {r : Reg} {v : Word} {st : State} (h : Inv st) : Inv (setReg r v st) := by
  cases r <;> first | exact loadS_inv h | exact ⟨h.memory, h.nmi, h.timers⟩

theorem push8_inv {p : StackPtr} {v : Byte} {st : State} (h : Inv st) : Inv (push8 p v st) := writeByte_inv (setSp_inv h)

theorem push16_inv {p : StackPtr} {v : Word} {st : State} (h : Inv st) : Inv (push16 p v st) := push8_inv (push8_inv h)

theorem pull8_inv {p : StackPtr} {st : State} (h : Inv st) : Inv (pull8 p st).2 := setSp_inv (readByte_inv h)

theorem pull16_inv {p : StackPtr} {st : State} (h : Inv st) : Inv (pull16 p st).2 := pull8_inv (pull8_inv h)

theorem pushEntireFrame_inv {st : State} (h : Inv st) : Inv (pushEntireFrame st) :=
  push8_inv (push8_inv (push8_inv (push8_inv (push16_inv (push16_inv (push16_inv (push16_inv h)))))))

theorem pushShortFrame_inv {st : State} (h : Inv st) : Inv (pushShortFrame st) := push8_inv (push16_inv h)

/-! ## Operands -/

theorem indexedBase_inv {m : Indexed} {st : State} (h : Inv st) : Inv (indexedBase m st).2 := by
  cases m <;> first | exact h | exact setIdx_inv h

theorem indexedAddress_inv {m : Indexed} {st : State} (h : Inv st) : Inv (indexedAddress m st).2 := by
  unfold indexedAddress
  split
  · exact readWord_inv (indexedBase_inv h)
  · exact indexedBase_inv h

theorem effectiveAddress_inv {m : MemOperand} {st : State} (h : Inv st) : Inv (effectiveAddress m st).2 := by
  cases m <;> first | exact h | exact indexedAddress_inv h

theorem operand8_inv {src : Src8} {st : State} (h : Inv st) : Inv (operand8 src st).2 := by
  cases src
  · exact h
  · exact readByte_inv (effectiveAddress_inv h)

theorem operand16_inv {src : Src16} {st : State} (h : Inv st) : Inv (operand16 src st).2 := by
  cases src
  · exact h
  · exact readWord_inv (effectiveAddress_inv h)

/-! ## Inputs, fetch, interrupts -/

theorem takeInput_inv {inp : BoundaryInput} {rest : List BoundaryInput} {st : State} (h : Inv st) :
    Inv (takeInput inp rest st) := by
  have h' : Inv (applyEvents inp.events { st with inputs := rest }) := applyEvents_inv ⟨h.memory, h.nmi, h.timers⟩
  refine ⟨h'.memory, fun hp => ?_, h'.timers⟩
  simp only [takeInput, latchLines, Bool.or_eq_true, Bool.and_eq_true] at hp ⊢
  rcases hp with hp | hp
  · exact h'.nmi hp
  · exact hp.1.1

theorem fetchMore_inv {n : Nat} {bytes : List Byte} {st : State} (h : Inv st) : Inv (fetchMore n bytes st).2 := by
  induction n generalizing bytes st with
  | zero => exact h
  | succ n ih =>
    unfold fetchMore
    split
    · have hb := readByte_inv (addr := st.pc) h
      exact ih ⟨hb.memory, hb.nmi, hb.timers⟩
    · exact h

theorem stackFor_inv {k : Interrupt} {st : State} (h : Inv st) : Inv (stackFor k st) := by
  unfold stackFor
  split
  · exact h
  · split
    · exact pushShortFrame_inv ⟨h.memory, h.nmi, h.timers⟩
    · exact pushEntireFrame_inv ⟨h.memory, h.nmi, h.timers⟩

theorem jumpThrough_inv {addr : Word} {st : State} (h : Inv st) : Inv (jumpThrough addr st) :=
  (readWord_inv (addr := addr) h).of_eq rfl rfl rfl rfl

theorem enterHandler_inv {k : Interrupt} {st : State} (h : Inv st) : Inv (enterHandler k st) :=
  ⟨h.memory, fun hp => h.nmi (by cases k <;> simp_all [enterHandler]), h.timers⟩

theorem raiseInterrupt_inv {k : Interrupt} {st : State} (h : Inv st) : Inv (raiseInterrupt k st) :=
  jumpThrough_inv (enterHandler_inv (stackFor_inv h))

theorem resetFields_inv {st : State} (h : Inv st) : Inv (resetFields st) :=
  ⟨h.memory, by simp [resetFields], by simp [ptmQuiet, resetFields, resetTimer, Timer.reset]⟩

theorem resetEntry_inv {st : State} (h : Inv st) : Inv (resetEntry st) := jumpThrough_inv (resetFields_inv h)

theorem abandonedAfter_inv {k : Nat} {stores : List Word} {before after : State} (hb : Inv before) (ha : Inv after) :
    Inv (abandonedAfter k stores before after) :=
  resetEntry_inv ⟨Memory.wf_copyCells hb.memory, ha.nmi, ha.timers⟩

theorem finishStep_inv {before after : State} (hb : Inv before) (ha : Inv after) : Inv (finishStep before after) := by
  unfold finishStep
  split
  · exact ha
  · split
    · exact abandonedAfter_inv (takeInput_inv hb) ha
    · exact ha

/-! ## Pulls -/

theorem pullCC_inv {p : StackPtr} {st : State} (h : Inv st) : Inv (pullCC p st) :=
  (pull8_inv (p := p) h).of_eq rfl rfl rfl rfl

theorem pullA_inv {p : StackPtr} {st : State} (h : Inv st) : Inv (pullA p st) :=
  (pull8_inv (p := p) h).of_eq rfl rfl rfl rfl

theorem pullB_inv {p : StackPtr} {st : State} (h : Inv st) : Inv (pullB p st) :=
  (pull8_inv (p := p) h).of_eq rfl rfl rfl rfl

theorem pullDP_inv {p : StackPtr} {st : State} (h : Inv st) : Inv (pullDP p st) :=
  (pull8_inv (p := p) h).of_eq rfl rfl rfl rfl

theorem pullX_inv {p : StackPtr} {st : State} (h : Inv st) : Inv (pullX p st) :=
  (pull16_inv (p := p) h).of_eq rfl rfl rfl rfl

theorem pullY_inv {p : StackPtr} {st : State} (h : Inv st) : Inv (pullY p st) :=
  (pull16_inv (p := p) h).of_eq rfl rfl rfl rfl

theorem pullOther_inv {p : StackPtr} {st : State} (h : Inv st) : Inv (pullOther p st) := by
  cases p
  · exact (pull16_inv (p := .s) h).of_eq rfl rfl rfl rfl
  · exact (pull16_inv (p := .u) h).of_armed rfl rfl rfl

theorem pullPC_inv {p : StackPtr} {st : State} (h : Inv st) : Inv (pullPC p st) :=
  (pull16_inv (p := p) h).of_eq rfl rfl rfl rfl

theorem returnFromInterrupt_inv {st : State} (h : Inv st) : Inv (returnFromInterrupt st) := by
  unfold returnFromInterrupt
  have h' := pullCC_inv (p := .s) h
  refine pullPC_inv ?_
  split
  · exact pullOther_inv (pullY_inv (pullX_inv (pullDP_inv (pullB_inv (pullA_inv h')))))
  · exact h'

theorem doIf_inv {c : Bool} {f : State → State} {st : State} (hf : ∀ {t}, Inv t → Inv (f t)) (h : Inv st) :
    Inv (doIf c f st) := by
  cases c
  · exact h
  · exact hf h

theorem pushList_inv {p : StackPtr} {list : Byte} {st : State} (h : Inv st) : Inv (pushList p list st) :=
  doIf_inv push8_inv (doIf_inv push8_inv (doIf_inv push8_inv (doIf_inv push8_inv
    (doIf_inv push16_inv (doIf_inv push16_inv (doIf_inv push16_inv (doIf_inv push16_inv h)))))))

theorem pullList_inv {p : StackPtr} {list : Byte} {st : State} (h : Inv st) : Inv (pullList p list st) :=
  doIf_inv pullPC_inv (doIf_inv pullOther_inv (doIf_inv pullY_inv (doIf_inv pullX_inv
    (doIf_inv pullDP_inv (doIf_inv pullB_inv (doIf_inv pullA_inv (doIf_inv pullCC_inv h)))))))

end Sys2Proof.Machine
end

