-- ==== Sys2Proof/Laws/Monitor.lean ====
section
/-! SUPPORT. The monitor's tables are whole, its dispatch as a contract meets what is asked of the ROM, and what a watched run that
stops says. -/

namespace Sys2Proof.Machine

/-! ## The tables -/

/-- The list of sources has all of them. -/
theorem mem_allSources (k : VectorSource) : k ∈ allSources := by cases k <;> decide

/-- Every key has a place in the matrix (R303). -/
theorem key_has_place (k : Key) : ∃ row : Fin 7, k ∈ keyRowKeys row := by
  cases k with
  | data n => revert n; decide
  | plus | a | r | s => exact ⟨5, by decide⟩
  | minus | d | g | l => exact ⟨6, by decide⟩
  | t | f1 | f2 | f3 => exact ⟨0, by decide⟩

/-! ## The dispatch -/

@[simp] theorem jumpThrough_s (addr : Word) (st : State) : (jumpThrough addr st).s = st.s := readWord_s addr st
@[simp] theorem jumpThrough_mem (addr : Word) (st : State) : (jumpThrough addr st).mem = st.mem := readWord_mem addr st
@[simp] theorem jumpThrough_memMap (addr : Word) (st : State) : (jumpThrough addr st).memMap = st.memMap :=
  readWord_memMap addr st
@[simp] theorem enterHandler_s (k : Interrupt) (st : State) : (enterHandler k st).s = st.s := rfl
@[simp] theorem enterHandler_mem (k : Interrupt) (st : State) : (enterHandler k st).mem = st.mem := rfl
@[simp] theorem enterHandler_memMap (k : Interrupt) (st : State) : (enterHandler k st).memMap = st.memMap := rfl

/-- A byte read depends on the two fields of memory alone. -/
theorem cellByte_eq {s t : State} (hm : t.mem = s.mem) (hr : t.memMap = s.memMap) (a : Word) : cellByte a t = cellByte a s := by
  simp only [cellByte, hm, hr]

/-- The dispatch leaves S and memory as the CPU's entry sequence left them (R291 item 2). -/
theorem monitorInterrupt_frame (k : Interrupt) (source : VectorSource) (s : State) :
    (monitorInterrupt k source s).s = (stackFor k s).s ∧ (monitorInterrupt k source s).mem = (stackFor k s).mem ∧
      (monitorInterrupt k source s).memMap = (stackFor k s).memMap := by
  simp [monitorInterrupt, monitorDispatch, raiseInterrupt]

/-- Where the entry lies in RAM or ROM, the dispatch goes to the address held there (R291). -/
theorem monitorInterrupt_pc (k : Interrupt) (source : VectorSource) (s : State)
    (h : Plain (ramVector source) (raiseInterrupt k s)) (h' : Plain (ramVector source + 1) (raiseInterrupt k s)) :
    (monitorInterrupt k source s).pc = cellWord (ramVector source) (monitorInterrupt k source s) := by
  have hr : ∀ a, Plain a (raiseInterrupt k s) → readByte a (raiseInterrupt k s) = (cellByte a (raiseInterrupt k s), raiseInterrupt k s) := by
    rintro a (h | h) <;> simp [readByte, h]
  simp only [monitorInterrupt, monitorDispatch, jumpThrough, readWord, cellWord, hr _ h, hr _ h']
  rfl

/-- The frame of a source is the one of the entry sequence, but for a timer of the MC6840 on FIRQ. -/
theorem frameFor_eq (k : Interrupt) (source : VectorSource) (s : State)
    (h : k = .firq → source ≠ .timer1 ∧ source ≠ .timer2 ∧ source ≠ .timer3) : frameFor k source s = stackFor k s := by
  cases k <;> cases source <;> simp_all [frameFor]

/-- The contract that replaces the monitor's dispatch meets what is asked of its code: the handler of a source that requests is
entered with the frame on top of S, unless the ROM must make the frame entire first (R291). -/
theorem monitorInterrupt_handsOver {k : Interrupt} {source : VectorSource} {s : State} (served : servedBy k source s = true)
    (requested : requests source (raiseInterrupt k s) = true)
    (frame : k = .firq → source ≠ .timer1 ∧ source ≠ .timer2 ∧ source ≠ .timer3)
    (table : Plain (ramVector source) (raiseInterrupt k s) ∧ Plain (ramVector source + 1) (raiseInterrupt k s)) :
    HandedOver k source s (monitorInterrupt k source s) [raiseInterrupt k s] := by
  obtain ⟨hs, hm, hr⟩ := monitorInterrupt_frame k source s
  rw [← frameFor_eq k source s frame] at hs hm hr
  exact ⟨served, ⟨_, List.mem_singleton_self _, requested⟩, monitorInterrupt_pc k source s table.1 table.2, hs,
    fun n _ => cellByte_eq hm hr _⟩

/-! ## The user's bytes -/

/-- The monitor's buffers are none of the user's bytes (R307 item 5). -/
theorem ownBuffers_not_user {calls size : Nat} {st : State} (h : UserProgramStart calls size st) {a : Word}
    (ha : a ∈ bufferBytes Config.displayBuffer ++ bufferBytes Config.secondBuffer) : a ∉ userBytes size := by
  obtain ⟨_, serves⟩ := h.serves
  intro hu
  exact Bool.false_ne_true ((h.user a hu).2.symm.trans (serves.buffers a ha).2)

/-- A routine leaves the user's bytes alone, but for those the program itself names as the target and those of the stack (R307 item
5). -/
theorem contract_keeps_user {calls size : Nat} {st s t : State} {r : Routine} {passed : List State}
    (h : UserProgramStart calls size st) (hc : Contract r s t passed) {a : Word} (ha : a ∈ userBytes size)
    (stack : a ∉ routineStack s) (target : a ∉ routineTargets r s) : cellByte a t = cellByte a s :=
  hc.memory a stack target (h.user a ha).2

/-- With the monitor's own display buffer as the target every byte of the user's is left alone, but for the stack. -/
theorem contract_displayBuffer_keeps_user {calls size : Nat} {st s t : State} {r : Routine} {passed : List State}
    (h : UserProgramStart calls size st) (hc : Contract r s t passed) (hr : r ∈ [.cldbuf, .rrdbuf, .rldbuf, .copydbuf])
    (hx : s.x = Config.displayBuffer) {a : Word} (ha : a ∈ userBytes size) (stack : a ∉ routineStack s) :
    cellByte a t = cellByte a s := by
  refine contract_keeps_user h hc ha stack fun ht => ?_
  have target : routineTargets r s = bufferBytes Config.displayBuffer := by
    simp only [List.mem_cons, List.not_mem_nil, or_false] at hr
    obtain rfl | rfl | rfl | rfl := hr <;> simp [routineTargets, hx]
  exact ownBuffers_not_user h (List.mem_append_left _ (target ▸ ht)) ha

/-! ## Watched runs -/

/-- A run that stops does so in a state that was waited for, which is among the states passed. -/
theorem watch_stopped {stop : State → Bool} {n : Nat} {s t : State} {passed all : List State}
    (h : watch stop n s passed = .stopped t all) : stop t = true ∧ t ∈ all := by
  induction n generalizing s passed with
  | zero => simp [watch] at h
  | succ n ih =>
    unfold watch at h
    split at h
    · cases h
      exact ⟨‹_›, List.mem_cons_self⟩
    · split at h
      · cases h
      · split at h
        · exact ih h
        · cases h

/-- A routine that its ROM runs to the end hands back control with S above the return address. -/
theorem meetsContract_returns {inOrder : State → Prop} {r : Routine} {s t : State} {n : Nat} {passed : List State}
    (h : MeetsContract inOrder r s)
    (hw : watch (fun t => t.pc == cellWord s.s s && t.s == s.s + 2) n s [] = .stopped t passed) :
    Contract r s t passed ∧ inOrder t := h.holds n t passed hw

end Sys2Proof.Machine
end

