-- ==== Sys2Proof/Laws/Operand.lean ====
section
/-! SUPPORT. What computing an address and fetching an operand can do to the state: only the index registers, the two devices whose
reads have side effects and the count of free values change. -/

namespace Sys2Proof.Machine

/-! ## Addresses -/

@[simp] theorem indexedBase_a (m : Indexed) (st : State) : (indexedBase m st).2.a = st.a := by
  cases m <;> simp [indexedBase]
@[simp] theorem indexedBase_b (m : Indexed) (st : State) : (indexedBase m st).2.b = st.b := by
  cases m <;> simp [indexedBase]
@[simp] theorem indexedBase_pc (m : Indexed) (st : State) : (indexedBase m st).2.pc = st.pc := by
  cases m <;> simp [indexedBase]
@[simp] theorem indexedBase_dp (m : Indexed) (st : State) : (indexedBase m st).2.dp = st.dp := by
  cases m <;> simp [indexedBase]
@[simp] theorem indexedBase_cc (m : Indexed) (st : State) : (indexedBase m st).2.cc = st.cc := by
  cases m <;> simp [indexedBase]
@[simp] theorem indexedBase_nmiArmed (m : Indexed) (st : State) : (indexedBase m st).2.nmiArmed = st.nmiArmed := by
  cases m <;> simp [indexedBase]
@[simp] theorem indexedBase_nmiPending (m : Indexed) (st : State) : (indexedBase m st).2.nmiPending = st.nmiPending := by
  cases m <;> simp [indexedBase]
@[simp] theorem indexedBase_wait (m : Indexed) (st : State) : (indexedBase m st).2.wait = st.wait := by
  cases m <;> simp [indexedBase]
@[simp] theorem indexedBase_nmiLine (m : Indexed) (st : State) : (indexedBase m st).2.nmiLine = st.nmiLine := by
  cases m <;> simp [indexedBase]
@[simp] theorem indexedBase_firqLine (m : Indexed) (st : State) : (indexedBase m st).2.firqLine = st.firqLine := by
  cases m <;> simp [indexedBase]
@[simp] theorem indexedBase_irqLine (m : Indexed) (st : State) : (indexedBase m st).2.irqLine = st.irqLine := by
  cases m <;> simp [indexedBase]
@[simp] theorem indexedBase_mem (m : Indexed) (st : State) : (indexedBase m st).2.mem = st.mem := by
  cases m <;> simp [indexedBase]
@[simp] theorem indexedBase_memMap (m : Indexed) (st : State) : (indexedBase m st).2.memMap = st.memMap := by
  cases m <;> simp [indexedBase]
@[simp] theorem indexedBase_pia (m : Indexed) (st : State) : (indexedBase m st).2.pia = st.pia := by
  cases m <;> simp [indexedBase]
@[simp] theorem indexedBase_ptm (m : Indexed) (st : State) : (indexedBase m st).2.ptm = st.ptm := by
  cases m <;> simp [indexedBase]
@[simp] theorem indexedBase_keys (m : Indexed) (st : State) : (indexedBase m st).2.keys = st.keys := by
  cases m <;> simp [indexedBase]
@[simp] theorem indexedBase_between (m : Indexed) (st : State) : (indexedBase m st).2.between = st.between := by
  cases m <;> simp [indexedBase]
@[simp] theorem indexedBase_display (m : Indexed) (st : State) : (indexedBase m st).2.display = st.display := by
  cases m <;> simp [indexedBase]
@[simp] theorem indexedBase_inputs (m : Indexed) (st : State) : (indexedBase m st).2.inputs = st.inputs := by
  cases m <;> simp [indexedBase]
@[simp] theorem indexedBase_draws (m : Indexed) (st : State) : (indexedBase m st).2.draws = st.draws := by
  cases m <;> simp [indexedBase]

@[simp] theorem indexedAddress_a (m : Indexed) (st : State) : (indexedAddress m st).2.a = st.a := by
  unfold indexedAddress; split <;> simp
@[simp] theorem indexedAddress_b (m : Indexed) (st : State) : (indexedAddress m st).2.b = st.b := by
  unfold indexedAddress; split <;> simp
@[simp] theorem indexedAddress_pc (m : Indexed) (st : State) : (indexedAddress m st).2.pc = st.pc := by
  unfold indexedAddress; split <;> simp
@[simp] theorem indexedAddress_dp (m : Indexed) (st : State) : (indexedAddress m st).2.dp = st.dp := by
  unfold indexedAddress; split <;> simp
@[simp] theorem indexedAddress_cc (m : Indexed) (st : State) : (indexedAddress m st).2.cc = st.cc := by
  unfold indexedAddress; split <;> simp
@[simp] theorem indexedAddress_nmiArmed (m : Indexed) (st : State) : (indexedAddress m st).2.nmiArmed = st.nmiArmed := by
  unfold indexedAddress; split <;> simp
@[simp] theorem indexedAddress_nmiPending (m : Indexed) (st : State) : (indexedAddress m st).2.nmiPending = st.nmiPending := by
  unfold indexedAddress; split <;> simp
@[simp] theorem indexedAddress_wait (m : Indexed) (st : State) : (indexedAddress m st).2.wait = st.wait := by
  unfold indexedAddress; split <;> simp
@[simp] theorem indexedAddress_nmiLine (m : Indexed) (st : State) : (indexedAddress m st).2.nmiLine = st.nmiLine := by
  unfold indexedAddress; split <;> simp
@[simp] theorem indexedAddress_firqLine (m : Indexed) (st : State) : (indexedAddress m st).2.firqLine = st.firqLine := by
  unfold indexedAddress; split <;> simp
@[simp] theorem indexedAddress_irqLine (m : Indexed) (st : State) : (indexedAddress m st).2.irqLine = st.irqLine := by
  unfold indexedAddress; split <;> simp
@[simp] theorem indexedAddress_mem (m : Indexed) (st : State) : (indexedAddress m st).2.mem = st.mem := by
  unfold indexedAddress; split <;> simp
@[simp] theorem indexedAddress_memMap (m : Indexed) (st : State) : (indexedAddress m st).2.memMap = st.memMap := by
  unfold indexedAddress; split <;> simp
@[simp] theorem indexedAddress_display (m : Indexed) (st : State) : (indexedAddress m st).2.display = st.display := by
  unfold indexedAddress; split <;> simp
@[simp] theorem indexedAddress_inputs (m : Indexed) (st : State) : (indexedAddress m st).2.inputs = st.inputs := by
  unfold indexedAddress; split <;> simp

@[simp] theorem effectiveAddress_a (m : MemOperand) (st : State) : (effectiveAddress m st).2.a = st.a := by
  cases m <;> simp [effectiveAddress]
@[simp] theorem effectiveAddress_b (m : MemOperand) (st : State) : (effectiveAddress m st).2.b = st.b := by
  cases m <;> simp [effectiveAddress]
@[simp] theorem effectiveAddress_pc (m : MemOperand) (st : State) : (effectiveAddress m st).2.pc = st.pc := by
  cases m <;> simp [effectiveAddress]
@[simp] theorem effectiveAddress_dp (m : MemOperand) (st : State) : (effectiveAddress m st).2.dp = st.dp := by
  cases m <;> simp [effectiveAddress]
@[simp] theorem effectiveAddress_cc (m : MemOperand) (st : State) : (effectiveAddress m st).2.cc = st.cc := by
  cases m <;> simp [effectiveAddress]
@[simp] theorem effectiveAddress_nmiArmed (m : MemOperand) (st : State) : (effectiveAddress m st).2.nmiArmed = st.nmiArmed := by
  cases m <;> simp [effectiveAddress]
@[simp] theorem effectiveAddress_nmiPending (m : MemOperand) (st : State) : (effectiveAddress m st).2.nmiPending = st.nmiPending := by
  cases m <;> simp [effectiveAddress]
@[simp] theorem effectiveAddress_wait (m : MemOperand) (st : State) : (effectiveAddress m st).2.wait = st.wait := by
  cases m <;> simp [effectiveAddress]
@[simp] theorem effectiveAddress_nmiLine (m : MemOperand) (st : State) : (effectiveAddress m st).2.nmiLine = st.nmiLine := by
  cases m <;> simp [effectiveAddress]
@[simp] theorem effectiveAddress_firqLine (m : MemOperand) (st : State) : (effectiveAddress m st).2.firqLine = st.firqLine := by
  cases m <;> simp [effectiveAddress]
@[simp] theorem effectiveAddress_irqLine (m : MemOperand) (st : State) : (effectiveAddress m st).2.irqLine = st.irqLine := by
  cases m <;> simp [effectiveAddress]
@[simp] theorem effectiveAddress_mem (m : MemOperand) (st : State) : (effectiveAddress m st).2.mem = st.mem := by
  cases m <;> simp [effectiveAddress]
@[simp] theorem effectiveAddress_memMap (m : MemOperand) (st : State) : (effectiveAddress m st).2.memMap = st.memMap := by
  cases m <;> simp [effectiveAddress]
@[simp] theorem effectiveAddress_display (m : MemOperand) (st : State) : (effectiveAddress m st).2.display = st.display := by
  cases m <;> simp [effectiveAddress]
@[simp] theorem effectiveAddress_inputs (m : MemOperand) (st : State) : (effectiveAddress m st).2.inputs = st.inputs := by
  cases m <;> simp [effectiveAddress]

/-! ## Operands -/

@[simp] theorem operand8_a (src : Src8) (st : State) : (operand8 src st).2.a = st.a := by
  cases src <;> simp [operand8]
@[simp] theorem operand8_b (src : Src8) (st : State) : (operand8 src st).2.b = st.b := by
  cases src <;> simp [operand8]
@[simp] theorem operand8_pc (src : Src8) (st : State) : (operand8 src st).2.pc = st.pc := by
  cases src <;> simp [operand8]
@[simp] theorem operand8_dp (src : Src8) (st : State) : (operand8 src st).2.dp = st.dp := by
  cases src <;> simp [operand8]
@[simp] theorem operand8_cc (src : Src8) (st : State) : (operand8 src st).2.cc = st.cc := by
  cases src <;> simp [operand8]
@[simp] theorem operand8_nmiArmed (src : Src8) (st : State) : (operand8 src st).2.nmiArmed = st.nmiArmed := by
  cases src <;> simp [operand8]
@[simp] theorem operand8_nmiPending (src : Src8) (st : State) : (operand8 src st).2.nmiPending = st.nmiPending := by
  cases src <;> simp [operand8]
@[simp] theorem operand8_wait (src : Src8) (st : State) : (operand8 src st).2.wait = st.wait := by
  cases src <;> simp [operand8]
@[simp] theorem operand8_nmiLine (src : Src8) (st : State) : (operand8 src st).2.nmiLine = st.nmiLine := by
  cases src <;> simp [operand8]
@[simp] theorem operand8_firqLine (src : Src8) (st : State) : (operand8 src st).2.firqLine = st.firqLine := by
  cases src <;> simp [operand8]
@[simp] theorem operand8_irqLine (src : Src8) (st : State) : (operand8 src st).2.irqLine = st.irqLine := by
  cases src <;> simp [operand8]
@[simp] theorem operand8_mem (src : Src8) (st : State) : (operand8 src st).2.mem = st.mem := by
  cases src <;> simp [operand8]
@[simp] theorem operand8_memMap (src : Src8) (st : State) : (operand8 src st).2.memMap = st.memMap := by
  cases src <;> simp [operand8]
@[simp] theorem operand8_display (src : Src8) (st : State) : (operand8 src st).2.display = st.display := by
  cases src <;> simp [operand8]
@[simp] theorem operand8_inputs (src : Src8) (st : State) : (operand8 src st).2.inputs = st.inputs := by
  cases src <;> simp [operand8]

@[simp] theorem operand16_a (src : Src16) (st : State) : (operand16 src st).2.a = st.a := by
  cases src <;> simp [operand16]
@[simp] theorem operand16_b (src : Src16) (st : State) : (operand16 src st).2.b = st.b := by
  cases src <;> simp [operand16]
@[simp] theorem operand16_pc (src : Src16) (st : State) : (operand16 src st).2.pc = st.pc := by
  cases src <;> simp [operand16]
@[simp] theorem operand16_dp (src : Src16) (st : State) : (operand16 src st).2.dp = st.dp := by
  cases src <;> simp [operand16]
@[simp] theorem operand16_cc (src : Src16) (st : State) : (operand16 src st).2.cc = st.cc := by
  cases src <;> simp [operand16]
@[simp] theorem operand16_nmiArmed (src : Src16) (st : State) : (operand16 src st).2.nmiArmed = st.nmiArmed := by
  cases src <;> simp [operand16]
@[simp] theorem operand16_nmiPending (src : Src16) (st : State) : (operand16 src st).2.nmiPending = st.nmiPending := by
  cases src <;> simp [operand16]
@[simp] theorem operand16_wait (src : Src16) (st : State) : (operand16 src st).2.wait = st.wait := by
  cases src <;> simp [operand16]
@[simp] theorem operand16_nmiLine (src : Src16) (st : State) : (operand16 src st).2.nmiLine = st.nmiLine := by
  cases src <;> simp [operand16]
@[simp] theorem operand16_firqLine (src : Src16) (st : State) : (operand16 src st).2.firqLine = st.firqLine := by
  cases src <;> simp [operand16]
@[simp] theorem operand16_irqLine (src : Src16) (st : State) : (operand16 src st).2.irqLine = st.irqLine := by
  cases src <;> simp [operand16]
@[simp] theorem operand16_mem (src : Src16) (st : State) : (operand16 src st).2.mem = st.mem := by
  cases src <;> simp [operand16]
@[simp] theorem operand16_memMap (src : Src16) (st : State) : (operand16 src st).2.memMap = st.memMap := by
  cases src <;> simp [operand16]
@[simp] theorem operand16_display (src : Src16) (st : State) : (operand16 src st).2.display = st.display := by
  cases src <;> simp [operand16]
@[simp] theorem operand16_inputs (src : Src16) (st : State) : (operand16 src st).2.inputs = st.inputs := by
  cases src <;> simp [operand16]

/-- An operand fetch never changes what a RAM or ROM address holds. -/
@[simp] theorem cellByte_operand8 (a : Word) (src : Src8) (st : State) : cellByte a (operand8 src st).2 = cellByte a st :=
  cellByte_congr a (by simp) (by simp)

@[simp] theorem cellByte_operand16 (a : Word) (src : Src16) (st : State) : cellByte a (operand16 src st).2 = cellByte a st :=
  cellByte_congr a (by simp) (by simp)

@[simp] theorem cellByte_effectiveAddress (a : Word) (m : MemOperand) (st : State) :
    cellByte a (effectiveAddress m st).2 = cellByte a st := cellByte_congr a (by simp) (by simp)

@[simp] theorem cellByte_readByte (a addr : Word) (st : State) : cellByte a (readByte addr st).2 = cellByte a st :=
  cellByte_congr a (by simp) (by simp)

@[simp] theorem getAcc_operand8 (r : Acc) (src : Src8) (st : State) : getAcc r (operand8 src st).2 = getAcc r st := by
  cases r <;> simp [getAcc]

@[simp] theorem getAcc_effectiveAddress (r : Acc) (m : MemOperand) (st : State) :
    getAcc r (effectiveAddress m st).2 = getAcc r st := by
  cases r <;> simp [getAcc]

@[simp] theorem regD_operand16 (src : Src16) (st : State) : regD (operand16 src st).2 = regD st := by simp [regD]

@[simp] theorem regD_effectiveAddress (m : MemOperand) (st : State) : regD (effectiveAddress m st).2 = regD st := by
  simp [regD]

end Sys2Proof.Machine
end

