-- ==== Sys2Proof/Laws/PerInstr.lean ====
section
/-! SUPPORT. The family `EncodedLength` over the instructions: the bytes of an instruction are 1 to 5 in number (30_encoding
R60). One lemma per constructor of `Instr`. -/

namespace Sys2Proof.Laws.EncodedLength

/-- The length of an instruction's encoding is 1 to 5 bytes. -/
def Statement (i : Instr) : Prop := 1 ≤ (encode i).length ∧ (encode i).length ≤ 5

theorem indexed (m : Indexed) : 1 ≤ (encodeIndexed m).length ∧ (encodeIndexed m).length ≤ 3 := by
  cases m <;> simp [encodeIndexed, encodeWord]

theorem memory (d x e : Byte) (m : MemOperand) : 1 ≤ (encodeMem d x e m).length ∧ (encodeMem d x e m).length ≤ 4 := by
  cases m
  · simp [encodeMem]
  · simp [encodeMem, encodeWord]
  · have := indexed ‹_›; simp only [encodeMem, List.length_cons]; omega

theorem unary (op : Byte) (m : MemOperand) : 1 ≤ (encodeUnary op m).length ∧ (encodeUnary op m).length ≤ 4 :=
  memory _ _ _ m

theorem binary (op : Byte) (m : MemOperand) : 1 ≤ (encodeBinary op m).length ∧ (encodeBinary op m).length ≤ 4 :=
  memory _ _ _ m

theorem source8 (op : Byte) (src : Src8) : 1 ≤ (encodeSrc8 op src).length ∧ (encodeSrc8 op src).length ≤ 4 := by
  cases src
  · simp [encodeSrc8]
  · exact memory _ _ _ _

theorem source16 (op : Byte) (src : Src16) : 1 ≤ (encodeSrc16 op src).length ∧ (encodeSrc16 op src).length ≤ 4 := by
  cases src
  · simp [encodeSrc16, encodeWord]
  · exact memory _ _ _ _

/-- Bytes that are 1 to 4 in number are 1 to 5 in number. -/
theorem page1 {bs : List Byte} (h : 1 ≤ bs.length ∧ bs.length ≤ 4) : 1 ≤ bs.length ∧ bs.length ≤ 5 :=
  ⟨h.1, Nat.le_succ_of_le h.2⟩

/-- A page byte before them makes 1 to 5. -/
theorem page23 (b : Byte) {bs : List Byte} (h : 1 ≤ bs.length ∧ bs.length ≤ 4) :
    1 ≤ (b :: bs).length ∧ (b :: bs).length ≤ 5 :=
  ⟨Nat.succ_le_succ (Nat.zero_le _), Nat.succ_le_succ h.2⟩

/-- An opcode before post-byte and offset bytes. -/
theorem lea (b : Byte) (m : Indexed) : 1 ≤ (b :: encodeIndexed m).length ∧ (b :: encodeIndexed m).length ≤ 5 :=
  ⟨Nat.succ_le_succ (Nat.zero_le _), Nat.le_succ_of_le (Nat.succ_le_succ (indexed m).2)⟩

theorem abx : Statement (.abx) := ⟨by decide, by decide⟩

theorem adca (src : Src8) : Statement (.adca src) := page1 (source8 0x89 src)

theorem adcb (src : Src8) : Statement (.adcb src) := page1 (source8 0xC9 src)

theorem adda (src : Src8) : Statement (.adda src) := page1 (source8 0x8B src)

theorem addb (src : Src8) : Statement (.addb src) := page1 (source8 0xCB src)

theorem addd (src : Src16) : Statement (.addd src) := page1 (source16 0xC3 src)

theorem anda (src : Src8) : Statement (.anda src) := page1 (source8 0x84 src)

theorem andb (src : Src8) : Statement (.andb src) := page1 (source8 0xC4 src)

theorem andcc (mask : Byte) : Statement (.andcc mask) := ⟨Nat.le_add_left _ _, Nat.le_of_ble_eq_true rfl⟩

theorem asla : Statement (.asla) := ⟨by decide, by decide⟩

theorem aslb : Statement (.aslb) := ⟨by decide, by decide⟩

theorem asl (m : MemOperand) : Statement (.asl m) := page1 (unary 0x08 m)

theorem asra : Statement (.asra) := ⟨by decide, by decide⟩

theorem asrb : Statement (.asrb) := ⟨by decide, by decide⟩

theorem asr (m : MemOperand) : Statement (.asr m) := page1 (unary 0x07 m)

theorem bita (src : Src8) : Statement (.bita src) := page1 (source8 0x85 src)

theorem bitb (src : Src8) : Statement (.bitb src) := page1 (source8 0xC5 src)

theorem clra : Statement (.clra) := ⟨by decide, by decide⟩

theorem clrb : Statement (.clrb) := ⟨by decide, by decide⟩

theorem clr (m : MemOperand) : Statement (.clr m) := page1 (unary 0x0F m)

theorem cmpa (src : Src8) : Statement (.cmpa src) := page1 (source8 0x81 src)

theorem cmpb (src : Src8) : Statement (.cmpb src) := page1 (source8 0xC1 src)

theorem cmpd (src : Src16) : Statement (.cmpd src) := page23 0x10 (source16 0x83 src)

theorem cmps (src : Src16) : Statement (.cmps src) := page23 0x11 (source16 0x8C src)

theorem cmpu (src : Src16) : Statement (.cmpu src) := page23 0x11 (source16 0x83 src)

theorem cmpx (src : Src16) : Statement (.cmpx src) := page1 (source16 0x8C src)

theorem cmpy (src : Src16) : Statement (.cmpy src) := page23 0x10 (source16 0x8C src)

theorem coma : Statement (.coma) := ⟨by decide, by decide⟩

theorem comb : Statement (.comb) := ⟨by decide, by decide⟩

theorem com (m : MemOperand) : Statement (.com m) := page1 (unary 0x03 m)

theorem cwai (mask : Byte) : Statement (.cwai mask) := ⟨Nat.le_add_left _ _, Nat.le_of_ble_eq_true rfl⟩

theorem daa : Statement (.daa) := ⟨by decide, by decide⟩

theorem deca : Statement (.deca) := ⟨by decide, by decide⟩

theorem decb : Statement (.decb) := ⟨by decide, by decide⟩

theorem dec (m : MemOperand) : Statement (.dec m) := page1 (unary 0x0A m)

theorem eora (src : Src8) : Statement (.eora src) := page1 (source8 0x88 src)

theorem eorb (src : Src8) : Statement (.eorb src) := page1 (source8 0xC8 src)

theorem exg (r1 r2 : Reg) : Statement (.exg r1 r2) := ⟨Nat.le_add_left _ _, Nat.le_of_ble_eq_true rfl⟩

theorem inca : Statement (.inca) := ⟨by decide, by decide⟩

theorem incb : Statement (.incb) := ⟨by decide, by decide⟩

theorem inc (m : MemOperand) : Statement (.inc m) := page1 (unary 0x0C m)

theorem jmp (m : MemOperand) : Statement (.jmp m) := page1 (unary 0x0E m)

theorem jsr (m : MemOperand) : Statement (.jsr m) := page1 (binary 0x8D m)

theorem lda (src : Src8) : Statement (.lda src) := page1 (source8 0x86 src)

theorem ldb (src : Src8) : Statement (.ldb src) := page1 (source8 0xC6 src)

theorem ldd (src : Src16) : Statement (.ldd src) := page1 (source16 0xCC src)

theorem lds (src : Src16) : Statement (.lds src) := page23 0x10 (source16 0xCE src)

theorem ldu (src : Src16) : Statement (.ldu src) := page1 (source16 0xCE src)

theorem ldx (src : Src16) : Statement (.ldx src) := page1 (source16 0x8E src)

theorem ldy (src : Src16) : Statement (.ldy src) := page23 0x10 (source16 0x8E src)

theorem leas (m : Indexed) : Statement (.leas m) := lea 0x32 m

theorem leau (m : Indexed) : Statement (.leau m) := lea 0x33 m

theorem leax (m : Indexed) : Statement (.leax m) := lea 0x30 m

theorem leay (m : Indexed) : Statement (.leay m) := lea 0x31 m

theorem lsla : Statement (.lsla) := ⟨by decide, by decide⟩

theorem lslb : Statement (.lslb) := ⟨by decide, by decide⟩

theorem lsl (m : MemOperand) : Statement (.lsl m) := page1 (unary 0x08 m)

theorem lsra : Statement (.lsra) := ⟨by decide, by decide⟩

theorem lsrb : Statement (.lsrb) := ⟨by decide, by decide⟩

theorem lsr (m : MemOperand) : Statement (.lsr m) := page1 (unary 0x04 m)

theorem mul : Statement (.mul) := ⟨by decide, by decide⟩

theorem nega : Statement (.nega) := ⟨by decide, by decide⟩

theorem negb : Statement (.negb) := ⟨by decide, by decide⟩

theorem neg (m : MemOperand) : Statement (.neg m) := page1 (unary 0x00 m)

theorem nop : Statement (.nop) := ⟨by decide, by decide⟩

theorem ora (src : Src8) : Statement (.ora src) := page1 (source8 0x8A src)

theorem orb (src : Src8) : Statement (.orb src) := page1 (source8 0xCA src)

theorem orcc (mask : Byte) : Statement (.orcc mask) := ⟨Nat.le_add_left _ _, Nat.le_of_ble_eq_true rfl⟩

theorem pshs (list : Byte) : Statement (.pshs list) := ⟨Nat.le_add_left _ _, Nat.le_of_ble_eq_true rfl⟩

theorem pshu (list : Byte) : Statement (.pshu list) := ⟨Nat.le_add_left _ _, Nat.le_of_ble_eq_true rfl⟩

theorem puls (list : Byte) : Statement (.puls list) := ⟨Nat.le_add_left _ _, Nat.le_of_ble_eq_true rfl⟩

theorem pulu (list : Byte) : Statement (.pulu list) := ⟨Nat.le_add_left _ _, Nat.le_of_ble_eq_true rfl⟩

theorem rola : Statement (.rola) := ⟨by decide, by decide⟩

theorem rolb : Statement (.rolb) := ⟨by decide, by decide⟩

theorem rol (m : MemOperand) : Statement (.rol m) := page1 (unary 0x09 m)

theorem rora : Statement (.rora) := ⟨by decide, by decide⟩

theorem rorb : Statement (.rorb) := ⟨by decide, by decide⟩

theorem ror (m : MemOperand) : Statement (.ror m) := page1 (unary 0x06 m)

theorem rti : Statement (.rti) := ⟨by decide, by decide⟩

theorem rts : Statement (.rts) := ⟨by decide, by decide⟩

theorem sbca (src : Src8) : Statement (.sbca src) := page1 (source8 0x82 src)

theorem sbcb (src : Src8) : Statement (.sbcb src) := page1 (source8 0xC2 src)

theorem sex : Statement (.sex) := ⟨by decide, by decide⟩

theorem sta (m : MemOperand) : Statement (.sta m) := page1 (binary 0x87 m)

theorem stb (m : MemOperand) : Statement (.stb m) := page1 (binary 0xC7 m)

theorem std (m : MemOperand) : Statement (.std m) := page1 (binary 0xCD m)

theorem sts (m : MemOperand) : Statement (.sts m) := page23 0x10 (binary 0xCF m)

theorem stu (m : MemOperand) : Statement (.stu m) := page1 (binary 0xCF m)

theorem stx (m : MemOperand) : Statement (.stx m) := page1 (binary 0x8F m)

theorem sty (m : MemOperand) : Statement (.sty m) := page23 0x10 (binary 0x8F m)

theorem suba (src : Src8) : Statement (.suba src) := page1 (source8 0x80 src)

theorem subb (src : Src8) : Statement (.subb src) := page1 (source8 0xC0 src)

theorem subd (src : Src16) : Statement (.subd src) := page1 (source16 0x83 src)

theorem swi : Statement (.swi) := ⟨by decide, by decide⟩

theorem swi2 : Statement (.swi2) := ⟨by decide, by decide⟩

theorem swi3 : Statement (.swi3) := ⟨by decide, by decide⟩

theorem sync : Statement (.sync) := ⟨by decide, by decide⟩

theorem tfr (r1 r2 : Reg) : Statement (.tfr r1 r2) := ⟨Nat.le_add_left _ _, Nat.le_of_ble_eq_true rfl⟩

theorem tsta : Statement (.tsta) := ⟨by decide, by decide⟩

theorem tstb : Statement (.tstb) := ⟨by decide, by decide⟩

theorem tst (m : MemOperand) : Statement (.tst m) := page1 (unary 0x0D m)

theorem bcc (off : Byte) : Statement (.bcc off) := ⟨Nat.le_add_left _ _, Nat.le_of_ble_eq_true rfl⟩

theorem bcs (off : Byte) : Statement (.bcs off) := ⟨Nat.le_add_left _ _, Nat.le_of_ble_eq_true rfl⟩

theorem beq (off : Byte) : Statement (.beq off) := ⟨Nat.le_add_left _ _, Nat.le_of_ble_eq_true rfl⟩

theorem bge (off : Byte) : Statement (.bge off) := ⟨Nat.le_add_left _ _, Nat.le_of_ble_eq_true rfl⟩

theorem bgt (off : Byte) : Statement (.bgt off) := ⟨Nat.le_add_left _ _, Nat.le_of_ble_eq_true rfl⟩

theorem bhi (off : Byte) : Statement (.bhi off) := ⟨Nat.le_add_left _ _, Nat.le_of_ble_eq_true rfl⟩

theorem bhs (off : Byte) : Statement (.bhs off) := ⟨Nat.le_add_left _ _, Nat.le_of_ble_eq_true rfl⟩

theorem ble (off : Byte) : Statement (.ble off) := ⟨Nat.le_add_left _ _, Nat.le_of_ble_eq_true rfl⟩

theorem blo (off : Byte) : Statement (.blo off) := ⟨Nat.le_add_left _ _, Nat.le_of_ble_eq_true rfl⟩

theorem bls (off : Byte) : Statement (.bls off) := ⟨Nat.le_add_left _ _, Nat.le_of_ble_eq_true rfl⟩

theorem blt (off : Byte) : Statement (.blt off) := ⟨Nat.le_add_left _ _, Nat.le_of_ble_eq_true rfl⟩

theorem bmi (off : Byte) : Statement (.bmi off) := ⟨Nat.le_add_left _ _, Nat.le_of_ble_eq_true rfl⟩

theorem bne (off : Byte) : Statement (.bne off) := ⟨Nat.le_add_left _ _, Nat.le_of_ble_eq_true rfl⟩

theorem bpl (off : Byte) : Statement (.bpl off) := ⟨Nat.le_add_left _ _, Nat.le_of_ble_eq_true rfl⟩

theorem bra (off : Byte) : Statement (.bra off) := ⟨Nat.le_add_left _ _, Nat.le_of_ble_eq_true rfl⟩

theorem brn (off : Byte) : Statement (.brn off) := ⟨Nat.le_add_left _ _, Nat.le_of_ble_eq_true rfl⟩

theorem bsr (off : Byte) : Statement (.bsr off) := ⟨Nat.le_add_left _ _, Nat.le_of_ble_eq_true rfl⟩

theorem bvc (off : Byte) : Statement (.bvc off) := ⟨Nat.le_add_left _ _, Nat.le_of_ble_eq_true rfl⟩

theorem bvs (off : Byte) : Statement (.bvs off) := ⟨Nat.le_add_left _ _, Nat.le_of_ble_eq_true rfl⟩

theorem lbcc (off : Word) : Statement (.lbcc off) := ⟨Nat.le_add_left _ _, Nat.le_of_ble_eq_true rfl⟩

theorem lbcs (off : Word) : Statement (.lbcs off) := ⟨Nat.le_add_left _ _, Nat.le_of_ble_eq_true rfl⟩

theorem lbeq (off : Word) : Statement (.lbeq off) := ⟨Nat.le_add_left _ _, Nat.le_of_ble_eq_true rfl⟩

theorem lbge (off : Word) : Statement (.lbge off) := ⟨Nat.le_add_left _ _, Nat.le_of_ble_eq_true rfl⟩

theorem lbgt (off : Word) : Statement (.lbgt off) := ⟨Nat.le_add_left _ _, Nat.le_of_ble_eq_true rfl⟩

theorem lbhi (off : Word) : Statement (.lbhi off) := ⟨Nat.le_add_left _ _, Nat.le_of_ble_eq_true rfl⟩

theorem lbhs (off : Word) : Statement (.lbhs off) := ⟨Nat.le_add_left _ _, Nat.le_of_ble_eq_true rfl⟩

theorem lble (off : Word) : Statement (.lble off) := ⟨Nat.le_add_left _ _, Nat.le_of_ble_eq_true rfl⟩

theorem lblo (off : Word) : Statement (.lblo off) := ⟨Nat.le_add_left _ _, Nat.le_of_ble_eq_true rfl⟩

theorem lbls (off : Word) : Statement (.lbls off) := ⟨Nat.le_add_left _ _, Nat.le_of_ble_eq_true rfl⟩

theorem lblt (off : Word) : Statement (.lblt off) := ⟨Nat.le_add_left _ _, Nat.le_of_ble_eq_true rfl⟩

theorem lbmi (off : Word) : Statement (.lbmi off) := ⟨Nat.le_add_left _ _, Nat.le_of_ble_eq_true rfl⟩

theorem lbne (off : Word) : Statement (.lbne off) := ⟨Nat.le_add_left _ _, Nat.le_of_ble_eq_true rfl⟩

theorem lbpl (off : Word) : Statement (.lbpl off) := ⟨Nat.le_add_left _ _, Nat.le_of_ble_eq_true rfl⟩

theorem lbra (off : Word) : Statement (.lbra off) := ⟨Nat.le_add_left _ _, Nat.le_of_ble_eq_true rfl⟩

theorem lbrn (off : Word) : Statement (.lbrn off) := ⟨Nat.le_add_left _ _, Nat.le_of_ble_eq_true rfl⟩

theorem lbsr (off : Word) : Statement (.lbsr off) := ⟨Nat.le_add_left _ _, Nat.le_of_ble_eq_true rfl⟩

theorem lbvc (off : Word) : Statement (.lbvc off) := ⟨Nat.le_add_left _ _, Nat.le_of_ble_eq_true rfl⟩

theorem lbvs (off : Word) : Statement (.lbvs off) := ⟨Nat.le_add_left _ _, Nat.le_of_ble_eq_true rfl⟩

end Sys2Proof.Laws.EncodedLength
end

