-- ==== Sys2Proof/Laws/Step.lean ====
section
/-! SUPPORT. How a step ends: with what the boundary started, unless RESET arrived in the middle of it. -/

namespace Sys2Proof.Machine

/-- No input: nothing is abandoned. -/
@[simp] theorem finishStep_noInput {before after : State} (h : before.inputs = []) : finishStep before after = after := by
  simp [finishStep, h]

/-- An input without a RESET in the middle: nothing is abandoned. -/
theorem finishStep_whole {before after : State} {inp : BoundaryInput} {rest : List BoundaryInput} (h : before.inputs = inp :: rest)
    (hr : inp.resetDuring = none) : finishStep before after = after := by
  simp only [finishStep, h, hr]
  cases inp.reset <;> rfl

/-- RESET in the middle: the first stores are done, then the reset entry (R331). -/
theorem finishStep_abandoned {before after : State} {inp : BoundaryInput} {rest : List BoundaryInput} {k : Nat}
    (h : before.inputs = inp :: rest) (hr : inp.reset = false) (hk : inp.resetDuring = some k) :
    finishStep before after = abandonedAfter k (boundaryStores (takeInput inp rest before)) (takeInput inp rest before) after := by
  simp only [finishStep, h, hr, hk]

/-- Without an input a step is what the boundary starts. -/
theorem step_noInput {s : State} (h : s.inputs = []) : step s = carryOut s := by
  unfold step
  cases carryOut s <;> simp [h]

/-- The same with an input that brings no RESET in the middle. -/
theorem step_whole {s : State} {inp : BoundaryInput} {rest : List BoundaryInput} (h : s.inputs = inp :: rest)
    (hr : inp.resetDuring = none) : step s = carryOut s := by
  unfold step
  cases carryOut s <;> simp [finishStep_whole h hr]

/-- The step is refused exactly when what the boundary starts is. -/
theorem step_refused {s : State} {r : Refusal} : step s = .refused r ↔ carryOut s = .refused r := by
  unfold step
  cases carryOut s <;> simp

end Sys2Proof.Machine
end

