-- ==== Sys2Proof/Tests/Slice0.lean ====
section
/-! SUPPORT. The model's own tests. Part 1: ill-formed terms. Part 2: one word of every row of the opcode table, written out from
its encoding, and the refused encodings. Part 3: single steps with results taken from spec/95_test_vectors.md (T numbers)
or worked out from the rule named. Part 4: a state or operands that meet the hypotheses of each statement. -/

namespace Sys2Proof.Tests

open Sys2Proof.Machine

/-! ## Helpers -/

/-- The start state of the vectors: PC = $0400, every other register 0, all addresses RAM but the devices'. -/
def zero : State :=
  { State.reset with pc := 0x0400, cc := ccOfByte 0, memMap := [{ first := 0, last := 0xFFFF, kind := .ram }] }

/-- A state with bytes stored from the given addresses upward. -/
def start (segments : List (Nat × List Byte)) (s : State) : State :=
  { s with mem := segments.foldl (fun m seg => loadBytes seg.1 seg.2 m) s.mem }

/-- The register values of the vectors that stack a frame. -/
def framed : State :=
  { zero with a := 0x11, b := 0x22, x := 0x4455, y := 0x6677, u := 0x8899, s := 0x0800, dp := 0x33, cc := ccOfByte 0x05 }

/-- The vector table of the vectors: "vectors V" of spec/95_test_vectors.md. -/
def vectors : Nat × List Byte :=
  (0xFFF2, [0xE0, 0x30, 0xE0, 0x20, 0xE0, 0x60, 0xE0, 0x80, 0xE0, 0xA0, 0xE0, 0xC0, 0xE0, 0x00])

/-- What a step's next state shows. -/
def after {α : Type} (s : State) (f : State → α) : Option α :=
  match step s with
  | .next t => some (f t)
  | _ => none

/-- The reason of a step that is refused. -/
def refusal (s : State) : Option Refusal :=
  match step s with
  | .refused r => some r
  | _ => none

/-- The flags N, Z, V and C as a number, for the vectors whose H is undefined. -/
def nzvc (s : State) : Nat := 8 * s.cc.n.toNat + 4 * s.cc.z.toNat + 2 * s.cc.v.toNat + s.cc.c.toNat

/-- Every byte list of a table decodes to its instruction, with nothing left. -/
abbrev DecodesTo (rows : List (List Byte × Instr)) : Prop := ∀ row ∈ rows, decode row.1 = .ok row.2 []

/-! ## Part 1: ill-formed terms -/

/-- The one check of WellFormed: a transfer between registers of two widths is refused (R82), here a word to a byte. -/
theorem test_illformed_tfr : (Instr.tfr .x .a).wellFormed = false := by
  decide

/-- A byte to a word. -/
theorem test_illformed_exg : (Instr.exg .cc .pc).wellFormed = false := by
  decide

/-- Of one width they are well-formed. -/
theorem test_wellformed_pairs : (Instr.tfr .d .s).wellFormed = true ∧ (Instr.exg .dp .a).wellFormed = true := by
  decide

/-- The ill-formed terms do not run. -/
theorem test_illformed_refused :
    (exec (.tfr .x .a) zero = .refused .undefinedTransferOperand) ∧
      exec (.exg .a .x) zero = .refused .undefinedTransferOperand := by
  exact ⟨rfl, rfl⟩

/-! ## Part 2: decoding -/

theorem test_decode_page1_row0 : DecodesTo
  [([0x00, 0x34], .neg (.direct 0x34)), ([0x03, 0x34], .com (.direct 0x34)), ([0x04, 0x34], .lsr (.direct 0x34)),
   ([0x06, 0x34], .ror (.direct 0x34)), ([0x07, 0x34], .asr (.direct 0x34)), ([0x08, 0x34], .asl (.direct 0x34)),
   ([0x09, 0x34], .rol (.direct 0x34)), ([0x0A, 0x34], .dec (.direct 0x34)), ([0x0C, 0x34], .inc (.direct 0x34)),
   ([0x0D, 0x34], .tst (.direct 0x34)), ([0x0E, 0x34], .jmp (.direct 0x34)), ([0x0F, 0x34], .clr (.direct 0x34))] := by
  decide

theorem test_decode_page1_row1 : DecodesTo
  [([0x12], .nop), ([0x13], .sync), ([0x16, 0x12, 0xA4], .lbra 0x12A4), ([0x17, 0x12, 0xA4], .lbsr 0x12A4), ([0x19], .daa),
   ([0x1A, 0x5A], .orcc 0x5A), ([0x1C, 0x5A], .andcc 0x5A), ([0x1D], .sex), ([0x1E, 0x12], .exg .x .y),
   ([0x1F, 0x12], .tfr .x .y)] := by
  decide

theorem test_decode_page1_row2_a : DecodesTo
  [([0x20, 0x5A], .bra 0x5A), ([0x21, 0x5A], .brn 0x5A), ([0x22, 0x5A], .bhi 0x5A), ([0x23, 0x5A], .bls 0x5A),
   ([0x24, 0x5A], .bcc 0x5A), ([0x25, 0x5A], .bcs 0x5A), ([0x26, 0x5A], .bne 0x5A), ([0x27, 0x5A], .beq 0x5A)] := by
  decide

theorem test_decode_page1_row2_b : DecodesTo
  [([0x28, 0x5A], .bvc 0x5A), ([0x29, 0x5A], .bvs 0x5A), ([0x2A, 0x5A], .bpl 0x5A), ([0x2B, 0x5A], .bmi 0x5A),
   ([0x2C, 0x5A], .bge 0x5A), ([0x2D, 0x5A], .blt 0x5A), ([0x2E, 0x5A], .bgt 0x5A), ([0x2F, 0x5A], .ble 0x5A)] := by
  decide

theorem test_decode_page1_row3_a : DecodesTo
  [([0x30, 0xC8, 0xF0], .leax (.off8 .u 0xF0 false)), ([0x31, 0xC8, 0xF0], .leay (.off8 .u 0xF0 false)),
   ([0x32, 0xC8, 0xF0], .leas (.off8 .u 0xF0 false)), ([0x33, 0xC8, 0xF0], .leau (.off8 .u 0xF0 false)),
   ([0x34, 0x5A], .pshs 0x5A), ([0x35, 0x5A], .puls 0x5A), ([0x36, 0x5A], .pshu 0x5A)] := by
  decide

theorem test_decode_page1_row3_b : DecodesTo
  [([0x37, 0x5A], .pulu 0x5A), ([0x39], .rts), ([0x3A], .abx), ([0x3B], .rti), ([0x3C, 0x5A], .cwai 0x5A), ([0x3D], .mul),
   ([0x3F], .swi)] := by
  decide

theorem test_decode_page1_row4 : DecodesTo
  [([0x40], .nega), ([0x43], .coma), ([0x44], .lsra), ([0x46], .rora), ([0x47], .asra), ([0x48], .asla), ([0x49], .rola),
   ([0x4A], .deca), ([0x4C], .inca), ([0x4D], .tsta), ([0x4F], .clra)] := by
  decide

theorem test_decode_page1_row5 : DecodesTo
  [([0x50], .negb), ([0x53], .comb), ([0x54], .lsrb), ([0x56], .rorb), ([0x57], .asrb), ([0x58], .aslb), ([0x59], .rolb),
   ([0x5A], .decb), ([0x5C], .incb), ([0x5D], .tstb), ([0x5F], .clrb)] := by
  decide

theorem test_decode_page1_row6 : DecodesTo
  [([0x60, 0xC8, 0xF0], .neg (.indexed (.off8 .u 0xF0 false))), ([0x63, 0xC8, 0xF0], .com (.indexed (.off8 .u 0xF0 false))),
   ([0x64, 0xC8, 0xF0], .lsr (.indexed (.off8 .u 0xF0 false))), ([0x66, 0xC8, 0xF0], .ror (.indexed (.off8 .u 0xF0 false))),
   ([0x67, 0xC8, 0xF0], .asr (.indexed (.off8 .u 0xF0 false))), ([0x68, 0xC8, 0xF0], .asl (.indexed (.off8 .u 0xF0 false))),
   ([0x69, 0xC8, 0xF0], .rol (.indexed (.off8 .u 0xF0 false))), ([0x6A, 0xC8, 0xF0], .dec (.indexed (.off8 .u 0xF0 false))),
   ([0x6C, 0xC8, 0xF0], .inc (.indexed (.off8 .u 0xF0 false))), ([0x6D, 0xC8, 0xF0], .tst (.indexed (.off8 .u 0xF0 false))),
   ([0x6E, 0xC8, 0xF0], .jmp (.indexed (.off8 .u 0xF0 false))), ([0x6F, 0xC8, 0xF0], .clr (.indexed (.off8 .u 0xF0 false)))] := by
  decide

theorem test_decode_page1_row7 : DecodesTo
  [([0x70, 0x56, 0x78], .neg (.extended 0x5678)), ([0x73, 0x56, 0x78], .com (.extended 0x5678)),
   ([0x74, 0x56, 0x78], .lsr (.extended 0x5678)), ([0x76, 0x56, 0x78], .ror (.extended 0x5678)),
   ([0x77, 0x56, 0x78], .asr (.extended 0x5678)), ([0x78, 0x56, 0x78], .asl (.extended 0x5678)),
   ([0x79, 0x56, 0x78], .rol (.extended 0x5678)), ([0x7A, 0x56, 0x78], .dec (.extended 0x5678)),
   ([0x7C, 0x56, 0x78], .inc (.extended 0x5678)), ([0x7D, 0x56, 0x78], .tst (.extended 0x5678)),
   ([0x7E, 0x56, 0x78], .jmp (.extended 0x5678)), ([0x7F, 0x56, 0x78], .clr (.extended 0x5678))] := by
  decide

theorem test_decode_page1_row8_a : DecodesTo
  [([0x80, 0x5A], .suba (.imm 0x5A)), ([0x81, 0x5A], .cmpa (.imm 0x5A)), ([0x82, 0x5A], .sbca (.imm 0x5A)),
   ([0x83, 0x12, 0xA4], .subd (.imm 0x12A4)), ([0x84, 0x5A], .anda (.imm 0x5A)), ([0x85, 0x5A], .bita (.imm 0x5A)),
   ([0x86, 0x5A], .lda (.imm 0x5A))] := by
  decide

theorem test_decode_page1_row8_b : DecodesTo
  [([0x88, 0x5A], .eora (.imm 0x5A)), ([0x89, 0x5A], .adca (.imm 0x5A)), ([0x8A, 0x5A], .ora (.imm 0x5A)),
   ([0x8B, 0x5A], .adda (.imm 0x5A)), ([0x8C, 0x12, 0xA4], .cmpx (.imm 0x12A4)), ([0x8D, 0x5A], .bsr 0x5A),
   ([0x8E, 0x12, 0xA4], .ldx (.imm 0x12A4))] := by
  decide

theorem test_decode_page1_row9_a : DecodesTo
  [([0x90, 0x34], .suba (.mem (.direct 0x34))), ([0x91, 0x34], .cmpa (.mem (.direct 0x34))),
   ([0x92, 0x34], .sbca (.mem (.direct 0x34))), ([0x93, 0x34], .subd (.mem (.direct 0x34))),
   ([0x94, 0x34], .anda (.mem (.direct 0x34))), ([0x95, 0x34], .bita (.mem (.direct 0x34))),
   ([0x96, 0x34], .lda (.mem (.direct 0x34))), ([0x97, 0x34], .sta (.direct 0x34))] := by
  decide

theorem test_decode_page1_row9_b : DecodesTo
  [([0x98, 0x34], .eora (.mem (.direct 0x34))), ([0x99, 0x34], .adca (.mem (.direct 0x34))),
   ([0x9A, 0x34], .ora (.mem (.direct 0x34))), ([0x9B, 0x34], .adda (.mem (.direct 0x34))),
   ([0x9C, 0x34], .cmpx (.mem (.direct 0x34))), ([0x9D, 0x34], .jsr (.direct 0x34)),
   ([0x9E, 0x34], .ldx (.mem (.direct 0x34))), ([0x9F, 0x34], .stx (.direct 0x34))] := by
  decide

theorem test_decode_page1_rowA_a : DecodesTo
  [([0xA0, 0xC8, 0xF0], .suba (.mem (.indexed (.off8 .u 0xF0 false)))),
   ([0xA1, 0xC8, 0xF0], .cmpa (.mem (.indexed (.off8 .u 0xF0 false)))),
   ([0xA2, 0xC8, 0xF0], .sbca (.mem (.indexed (.off8 .u 0xF0 false)))),
   ([0xA3, 0xC8, 0xF0], .subd (.mem (.indexed (.off8 .u 0xF0 false)))),
   ([0xA4, 0xC8, 0xF0], .anda (.mem (.indexed (.off8 .u 0xF0 false)))),
   ([0xA5, 0xC8, 0xF0], .bita (.mem (.indexed (.off8 .u 0xF0 false)))),
   ([0xA6, 0xC8, 0xF0], .lda (.mem (.indexed (.off8 .u 0xF0 false)))),
   ([0xA7, 0xC8, 0xF0], .sta (.indexed (.off8 .u 0xF0 false)))] := by
  decide

theorem test_decode_page1_rowA_b : DecodesTo
  [([0xA8, 0xC8, 0xF0], .eora (.mem (.indexed (.off8 .u 0xF0 false)))),
   ([0xA9, 0xC8, 0xF0], .adca (.mem (.indexed (.off8 .u 0xF0 false)))),
   ([0xAA, 0xC8, 0xF0], .ora (.mem (.indexed (.off8 .u 0xF0 false)))),
   ([0xAB, 0xC8, 0xF0], .adda (.mem (.indexed (.off8 .u 0xF0 false)))),
   ([0xAC, 0xC8, 0xF0], .cmpx (.mem (.indexed (.off8 .u 0xF0 false)))),
   ([0xAD, 0xC8, 0xF0], .jsr (.indexed (.off8 .u 0xF0 false))),
   ([0xAE, 0xC8, 0xF0], .ldx (.mem (.indexed (.off8 .u 0xF0 false)))),
   ([0xAF, 0xC8, 0xF0], .stx (.indexed (.off8 .u 0xF0 false)))] := by
  decide

theorem test_decode_page1_rowB_a : DecodesTo
  [([0xB0, 0x56, 0x78], .suba (.mem (.extended 0x5678))), ([0xB1, 0x56, 0x78], .cmpa (.mem (.extended 0x5678))),
   ([0xB2, 0x56, 0x78], .sbca (.mem (.extended 0x5678))), ([0xB3, 0x56, 0x78], .subd (.mem (.extended 0x5678))),
   ([0xB4, 0x56, 0x78], .anda (.mem (.extended 0x5678))), ([0xB5, 0x56, 0x78], .bita (.mem (.extended 0x5678))),
   ([0xB6, 0x56, 0x78], .lda (.mem (.extended 0x5678))), ([0xB7, 0x56, 0x78], .sta (.extended 0x5678))] := by
  decide

theorem test_decode_page1_rowB_b : DecodesTo
  [([0xB8, 0x56, 0x78], .eora (.mem (.extended 0x5678))), ([0xB9, 0x56, 0x78], .adca (.mem (.extended 0x5678))),
   ([0xBA, 0x56, 0x78], .ora (.mem (.extended 0x5678))), ([0xBB, 0x56, 0x78], .adda (.mem (.extended 0x5678))),
   ([0xBC, 0x56, 0x78], .cmpx (.mem (.extended 0x5678))), ([0xBD, 0x56, 0x78], .jsr (.extended 0x5678)),
   ([0xBE, 0x56, 0x78], .ldx (.mem (.extended 0x5678))), ([0xBF, 0x56, 0x78], .stx (.extended 0x5678))] := by
  decide

theorem test_decode_page1_rowC : DecodesTo
  [([0xC0, 0x5A], .subb (.imm 0x5A)), ([0xC1, 0x5A], .cmpb (.imm 0x5A)), ([0xC2, 0x5A], .sbcb (.imm 0x5A)),
   ([0xC3, 0x12, 0xA4], .addd (.imm 0x12A4)), ([0xC4, 0x5A], .andb (.imm 0x5A)), ([0xC5, 0x5A], .bitb (.imm 0x5A)),
   ([0xC6, 0x5A], .ldb (.imm 0x5A)), ([0xC8, 0x5A], .eorb (.imm 0x5A)), ([0xC9, 0x5A], .adcb (.imm 0x5A)),
   ([0xCA, 0x5A], .orb (.imm 0x5A)), ([0xCB, 0x5A], .addb (.imm 0x5A)), ([0xCC, 0x12, 0xA4], .ldd (.imm 0x12A4)),
   ([0xCE, 0x12, 0xA4], .ldu (.imm 0x12A4))] := by
  decide

theorem test_decode_page1_rowD_a : DecodesTo
  [([0xD0, 0x34], .subb (.mem (.direct 0x34))), ([0xD1, 0x34], .cmpb (.mem (.direct 0x34))),
   ([0xD2, 0x34], .sbcb (.mem (.direct 0x34))), ([0xD3, 0x34], .addd (.mem (.direct 0x34))),
   ([0xD4, 0x34], .andb (.mem (.direct 0x34))), ([0xD5, 0x34], .bitb (.mem (.direct 0x34))),
   ([0xD6, 0x34], .ldb (.mem (.direct 0x34))), ([0xD7, 0x34], .stb (.direct 0x34))] := by
  decide

theorem test_decode_page1_rowD_b : DecodesTo
  [([0xD8, 0x34], .eorb (.mem (.direct 0x34))), ([0xD9, 0x34], .adcb (.mem (.direct 0x34))),
   ([0xDA, 0x34], .orb (.mem (.direct 0x34))), ([0xDB, 0x34], .addb (.mem (.direct 0x34))),
   ([0xDC, 0x34], .ldd (.mem (.direct 0x34))), ([0xDD, 0x34], .std (.direct 0x34)),
   ([0xDE, 0x34], .ldu (.mem (.direct 0x34))), ([0xDF, 0x34], .stu (.direct 0x34))] := by
  decide

theorem test_decode_page1_rowE_a : DecodesTo
  [([0xE0, 0xC8, 0xF0], .subb (.mem (.indexed (.off8 .u 0xF0 false)))),
   ([0xE1, 0xC8, 0xF0], .cmpb (.mem (.indexed (.off8 .u 0xF0 false)))),
   ([0xE2, 0xC8, 0xF0], .sbcb (.mem (.indexed (.off8 .u 0xF0 false)))),
   ([0xE3, 0xC8, 0xF0], .addd (.mem (.indexed (.off8 .u 0xF0 false)))),
   ([0xE4, 0xC8, 0xF0], .andb (.mem (.indexed (.off8 .u 0xF0 false)))),
   ([0xE5, 0xC8, 0xF0], .bitb (.mem (.indexed (.off8 .u 0xF0 false)))),
   ([0xE6, 0xC8, 0xF0], .ldb (.mem (.indexed (.off8 .u 0xF0 false)))),
   ([0xE7, 0xC8, 0xF0], .stb (.indexed (.off8 .u 0xF0 false)))] := by
  decide

theorem test_decode_page1_rowE_b : DecodesTo
  [([0xE8, 0xC8, 0xF0], .eorb (.mem (.indexed (.off8 .u 0xF0 false)))),
   ([0xE9, 0xC8, 0xF0], .adcb (.mem (.indexed (.off8 .u 0xF0 false)))),
   ([0xEA, 0xC8, 0xF0], .orb (.mem (.indexed (.off8 .u 0xF0 false)))),
   ([0xEB, 0xC8, 0xF0], .addb (.mem (.indexed (.off8 .u 0xF0 false)))),
   ([0xEC, 0xC8, 0xF0], .ldd (.mem (.indexed (.off8 .u 0xF0 false)))),
   ([0xED, 0xC8, 0xF0], .std (.indexed (.off8 .u 0xF0 false))),
   ([0xEE, 0xC8, 0xF0], .ldu (.mem (.indexed (.off8 .u 0xF0 false)))),
   ([0xEF, 0xC8, 0xF0], .stu (.indexed (.off8 .u 0xF0 false)))] := by
  decide

theorem test_decode_page1_rowF_a : DecodesTo
  [([0xF0, 0x56, 0x78], .subb (.mem (.extended 0x5678))), ([0xF1, 0x56, 0x78], .cmpb (.mem (.extended 0x5678))),
   ([0xF2, 0x56, 0x78], .sbcb (.mem (.extended 0x5678))), ([0xF3, 0x56, 0x78], .addd (.mem (.extended 0x5678))),
   ([0xF4, 0x56, 0x78], .andb (.mem (.extended 0x5678))), ([0xF5, 0x56, 0x78], .bitb (.mem (.extended 0x5678))),
   ([0xF6, 0x56, 0x78], .ldb (.mem (.extended 0x5678))), ([0xF7, 0x56, 0x78], .stb (.extended 0x5678))] := by
  decide

theorem test_decode_page1_rowF_b : DecodesTo
  [([0xF8, 0x56, 0x78], .eorb (.mem (.extended 0x5678))), ([0xF9, 0x56, 0x78], .adcb (.mem (.extended 0x5678))),
   ([0xFA, 0x56, 0x78], .orb (.mem (.extended 0x5678))), ([0xFB, 0x56, 0x78], .addb (.mem (.extended 0x5678))),
   ([0xFC, 0x56, 0x78], .ldd (.mem (.extended 0x5678))), ([0xFD, 0x56, 0x78], .std (.extended 0x5678)),
   ([0xFE, 0x56, 0x78], .ldu (.mem (.extended 0x5678))), ([0xFF, 0x56, 0x78], .stu (.extended 0x5678))] := by
  decide

theorem test_decode_page2_a : DecodesTo
  [([0x10, 0x83, 0x12, 0xA4], .cmpd (.imm 0x12A4)), ([0x10, 0x8C, 0x12, 0xA4], .cmpy (.imm 0x12A4)),
   ([0x10, 0x8E, 0x12, 0xA4], .ldy (.imm 0x12A4)), ([0x10, 0x93, 0x34], .cmpd (.mem (.direct 0x34))),
   ([0x10, 0x9C, 0x34], .cmpy (.mem (.direct 0x34))), ([0x10, 0x9E, 0x34], .ldy (.mem (.direct 0x34))),
   ([0x10, 0x9F, 0x34], .sty (.direct 0x34)), ([0x10, 0xA3, 0xC8, 0xF0], .cmpd (.mem (.indexed (.off8 .u 0xF0 false)))),
   ([0x10, 0xAC, 0xC8, 0xF0], .cmpy (.mem (.indexed (.off8 .u 0xF0 false)))),
   ([0x10, 0xAE, 0xC8, 0xF0], .ldy (.mem (.indexed (.off8 .u 0xF0 false)))),
   ([0x10, 0xAF, 0xC8, 0xF0], .sty (.indexed (.off8 .u 0xF0 false)))] := by
  decide

theorem test_decode_page2_b : DecodesTo
  [([0x10, 0xB3, 0x56, 0x78], .cmpd (.mem (.extended 0x5678))), ([0x10, 0xBC, 0x56, 0x78], .cmpy (.mem (.extended 0x5678))),
   ([0x10, 0xBE, 0x56, 0x78], .ldy (.mem (.extended 0x5678))), ([0x10, 0xBF, 0x56, 0x78], .sty (.extended 0x5678)),
   ([0x10, 0xCE, 0x12, 0xA4], .lds (.imm 0x12A4)), ([0x10, 0xDE, 0x34], .lds (.mem (.direct 0x34))),
   ([0x10, 0xDF, 0x34], .sts (.direct 0x34)), ([0x10, 0xEE, 0xC8, 0xF0], .lds (.mem (.indexed (.off8 .u 0xF0 false)))),
   ([0x10, 0xEF, 0xC8, 0xF0], .sts (.indexed (.off8 .u 0xF0 false))),
   ([0x10, 0xFE, 0x56, 0x78], .lds (.mem (.extended 0x5678))), ([0x10, 0xFF, 0x56, 0x78], .sts (.extended 0x5678))] := by
  decide

theorem test_decode_page2_branches_a : DecodesTo
  [([0x10, 0x21, 0x12, 0xA4], .lbrn 0x12A4), ([0x10, 0x22, 0x12, 0xA4], .lbhi 0x12A4),
   ([0x10, 0x23, 0x12, 0xA4], .lbls 0x12A4), ([0x10, 0x24, 0x12, 0xA4], .lbcc 0x12A4),
   ([0x10, 0x25, 0x12, 0xA4], .lbcs 0x12A4), ([0x10, 0x26, 0x12, 0xA4], .lbne 0x12A4),
   ([0x10, 0x27, 0x12, 0xA4], .lbeq 0x12A4), ([0x10, 0x28, 0x12, 0xA4], .lbvc 0x12A4)] := by
  decide

theorem test_decode_page2_branches_b : DecodesTo
  [([0x10, 0x29, 0x12, 0xA4], .lbvs 0x12A4), ([0x10, 0x2A, 0x12, 0xA4], .lbpl 0x12A4),
   ([0x10, 0x2B, 0x12, 0xA4], .lbmi 0x12A4), ([0x10, 0x2C, 0x12, 0xA4], .lbge 0x12A4),
   ([0x10, 0x2D, 0x12, 0xA4], .lblt 0x12A4), ([0x10, 0x2E, 0x12, 0xA4], .lbgt 0x12A4),
   ([0x10, 0x2F, 0x12, 0xA4], .lble 0x12A4), ([0x10, 0x3F], .swi2)] := by
  decide

theorem test_decode_page3 : DecodesTo
  [([0x11, 0x3F], .swi3), ([0x11, 0x83, 0x12, 0xA4], .cmpu (.imm 0x12A4)), ([0x11, 0x8C, 0x12, 0xA4], .cmps (.imm 0x12A4)),
   ([0x11, 0x93, 0x34], .cmpu (.mem (.direct 0x34))), ([0x11, 0x9C, 0x34], .cmps (.mem (.direct 0x34))),
   ([0x11, 0xA3, 0xC8, 0xF0], .cmpu (.mem (.indexed (.off8 .u 0xF0 false)))),
   ([0x11, 0xAC, 0xC8, 0xF0], .cmps (.mem (.indexed (.off8 .u 0xF0 false)))),
   ([0x11, 0xB3, 0x56, 0x78], .cmpu (.mem (.extended 0x5678))), ([0x11, 0xBC, 0x56, 0x78], .cmps (.mem (.extended 0x5678)))] := by
  decide

/-- The indexed post-bytes of R69 to R79, one of each form, behind the opcode of LDA. -/
theorem test_decode_postbytes : DecodesTo
  [([0xA6, 0x1F], .lda (.mem (.indexed (.off5 .x (-1))))), ([0xA6, 0xA4], .lda (.mem (.indexed (.noOff .y false)))),
   ([0xA6, 0x88, 0x80], .lda (.mem (.indexed (.off8 .x 0x80 false)))),
   ([0xA6, 0xE9, 0x12, 0x34], .lda (.mem (.indexed (.off16 .s 0x1234 false)))),
   ([0xA6, 0x86], .lda (.mem (.indexed (.accA .x false)))), ([0xA6, 0xA5], .lda (.mem (.indexed (.accB .y false)))),
   ([0xA6, 0xCB], .lda (.mem (.indexed (.accD .u false)))), ([0xA6, 0xE0], .lda (.mem (.indexed (.inc1 .s)))),
   ([0xA6, 0x81], .lda (.mem (.indexed (.inc2 .x false)))), ([0xA6, 0xA2], .lda (.mem (.indexed (.dec1 .y))))] := by
  decide

/-- The other forms of R70 to R79. -/
theorem test_decode_postbytes_indirect : DecodesTo
  [([0xA6, 0xC3], .lda (.mem (.indexed (.dec2 .u false)))), ([0xA6, 0x8C, 0xFE], .lda (.mem (.indexed (.pcr8 0xFE false)))),
   ([0xA6, 0xED, 0x12, 0x34], .lda (.mem (.indexed (.pcr16 0x1234 false)))),
   ([0xA6, 0x94], .lda (.mem (.indexed (.noOff .x true)))), ([0xA6, 0xB8, 0x10], .lda (.mem (.indexed (.off8 .y 0x10 true)))),
   ([0xA6, 0xF1], .lda (.mem (.indexed (.inc2 .s true)))), ([0xA6, 0x9D, 0x12,
      0x34], .lda (.mem (.indexed (.pcr16 0x1234 true)))),
   ([0xA6, 0x9F, 0x20, 0x00], .lda (.mem (.indexed (.extInd 0x2000))))] := by
  decide

/-- The second mnemonics have the words of the first (R92). -/
theorem test_encode_second_mnemonics :
    encode .lsla = [0x48] ∧ encode .lslb = [0x58] ∧ encode (.lsl (.direct 0x34)) = [0x08, 0x34] ∧ encode (.bhs 0x5A) = [0x24,
      0x5A] ∧
    encode (.blo 0x5A) = [0x25, 0x5A] ∧ encode (.lbhs 0x12A4) = [0x10, 0x24, 0x12, 0xA4] ∧
    encode (.lblo 0x12A4) = [0x10, 0x25, 0x12, 0xA4] := by
  decide

/-- T108 to T110, T122, T123, T127: the refused post-bytes. -/
theorem test_refused_postbytes : ∀ row ∈ ([
   ([0xA6, 0x87], .illegalPostbyte),
   ([0xA6, 0x90], .illegalPostbyte),
   ([0xA6, 0x8F, 0x20, 0x00], .illegalPostbyte),
   ([0x1F, 0x18], .undefinedTransferOperand),
   ([0x1F, 0x60], .undefinedTransferOperand),
   ([0x1E, 0x81], .undefinedTransferOperand)] : List (List Byte × DecodeError)),
    decode row.1 = .bad row.2 := by
  decide

/-- T179 to T187: the refused opcodes. -/
theorem test_refused_opcodes : ∀ row ∈ ([
   ([0x01], .illegalOpcode),
   ([0x87, 0x00], .illegalOpcode),
   ([0x8F, 0x00, 0x00], .illegalOpcode),
   ([0xCD], .illegalOpcode),
   ([0x10, 0x00], .illegalOpcode),
   ([0x10, 0x10, 0x8E], .illegalOpcode),
   ([0x11, 0x3E], .illegalOpcode),
   ([0x38], .illegalOpcode),
   ([0x3E], .illegalOpcode)] : List (List Byte × DecodeError)),
    decode row.1 = .bad row.2 := by
  decide

/-- T108, T122, T179: the step is refused and so changes no state. -/
theorem test_refused_steps :
    refusal (start [(0x0400, [0xA6, 0x87])] zero) = some .illegalPostbyte ∧
    refusal (start [(0x0400, [0x1F, 0x18])] zero) = some .undefinedTransferOperand ∧
    refusal (start [(0x0400, [0x01])] zero) = some .illegalOpcode := by
  decide

/-- The number of a table row: the first byte, and for pages 2 and 3 the prefix above the opcode (log 15). -/
theorem test_table_words : decodeTableWord 8 0x12 = some .nop ∧ decodeTableWord 16 0x103F = some .swi2 ∧
    decodeTableWord 16 0x11BC = some (.cmps (.mem (.extended 0))) ∧ decodeTableWord 8 0x86 = some (.lda (.imm 0)) := by
  decide

/-- The instruction of a table row is the first that runs after reset. -/
theorem test_withFetchWord : after (State.reset.withFetchWord 8 0x4C) (fun t => (t.a, t.pc)) = some (0x01, 0x0401) ∧
    after (State.reset.withFetchWord 16 0x108E) (fun t => (t.y, t.pc)) = some (0, 0x0404) := by
  decide

/-! ## Part 3: single steps -/

/-- T1, R148: LDA #$00. -/
theorem test_lda_1 : after (start [(0x0400, [0x86, 0x00])] { zero with a := 0x55, cc := ccOfByte 0x03 })
    (fun t => (t.a, t.pc, ccByte t.cc)) = some (0x00, 0x0402, 0x05) := by
  decide

/-- T2, R148: LDA #$80. -/
theorem test_lda_2 : after (start [(0x0400, [0x86, 0x80])] { zero with cc := ccOfByte 0x04 })
    (fun t => (t.a, t.pc, ccByte t.cc)) = some (0x80, 0x0402, 0x08) := by
  decide

/-- T4, R149: LDB >$00A1. -/
theorem test_ldb_1 : after (start [(0x0400, [0xF6, 0x00, 0xA1]), (0x00A1, [0x99]), (0x20A1, [0x11])] { zero with dp := 0x20 })
    (fun t => (t.b, t.pc, ccByte t.cc)) = some (0x99, 0x0403, 0x08) := by
  decide

/-- T5, R150: LDD $FFFF. -/
theorem test_ldd_1 : after (start [(0x0400, [0xFC, 0xFF, 0xFF]), (0x0000, [0x34]), (0xFFFF, [0x12])] zero)
    (fun t => (t.a, t.b, t.pc, ccByte t.cc)) = some (0x12, 0x34, 0x0403, 0x00) := by
  decide

/-- T6, R153: LDX #$0000. -/
theorem test_ldx_1 : after (start [(0x0400, [0x8E, 0x00, 0x00])] { zero with x := 0x1234 })
    (fun t => (t.x, t.pc, ccByte t.cc)) = some (0x0000, 0x0403, 0x04) := by
  decide

/-- T7, R154: LDY #$03E8. -/
theorem test_ldy_1 : after (start [(0x0400, [0x10, 0x8E, 0x03, 0xE8])] zero)
    (fun t => (t.y, t.pc, ccByte t.cc)) = some (0x03E8, 0x0404, 0x00) := by
  decide

/-- T8, R151: LDS #$0800. -/
theorem test_lds_1 : after (start [(0x0400, [0x10, 0xCE, 0x08, 0x00])] zero)
    (fun t => (t.s, t.pc, ccByte t.cc, t.nmiArmed)) = some (0x0800, 0x0404, 0x00, true) := by
  decide

/-- T9, R152: LDU ,X++. -/
theorem test_ldu_1 : after (start [(0x0400, [0xEE, 0x81]), (0x2000, [0x80, 0x01])] { zero with x := 0x2000 })
    (fun t => (t.x, t.u, t.pc, ccByte t.cc)) = some (0x2002, 0x8001, 0x0402, 0x08) := by
  decide

/-- T10, R193: STA <$02. -/
theorem test_sta_1 : after (start [(0x0400, [0x97, 0x02])] { zero with a := 0x00, cc := ccOfByte 0x0B })
    (fun t => (t.pc, ccByte t.cc, cellByte 0x0002 t)) = some (0x0402, 0x05, 0x00) := by
  decide

/-- T11, R195: STD $F01E. -/
theorem test_std_1 : after (start [(0x0400, [0xFD, 0xF0, 0x1E])] { zero with a := 0x80, b := 0xFF })
    (fun t => (t.pc, ccByte t.cc)) = some (0x0403, 0x08) := by
  decide

/-- T12, R198: STX $FFFF. -/
theorem test_stx_1 : after (start [(0x0400, [0xBF, 0xFF, 0xFF])] { zero with x := 0xA55A })
    (fun t => (t.pc, ccByte t.cc, cellByte 0xFFFF t, cellByte 0x0000 t)) = some (0x0403, 0x08, 0xA5, 0x5A) := by
  decide

/-- T13, R196: STS ,--Y. -/
theorem test_sts_1 : after (start [(0x0400, [0x10, 0xEF, 0xA3])] { zero with y := 0x3002, s := 0x1234 })
    (fun t => (t.y, t.pc, ccByte t.cc, cellByte 0x3000 t, cellByte 0x3001 t)) = some (0x3000, 0x0403, 0x00, 0x12, 0x34) := by
  decide

/-- T14, R199: STY [$10,U]. -/
theorem test_sty_1 : after (start [(0x0400, [0x10, 0xAF, 0xD8, 0x10]), (0x3010, [0x40, 0x00])]
      { zero with y := 0xBEEF, u := 0x3000 })
    (fun t => (t.pc, ccByte t.cc, cellByte 0x4000 t, cellByte 0x4001 t)) = some (0x0404, 0x08, 0xBE, 0xEF) := by
  decide

/-- T15, R108: ADDA #$01. -/
theorem test_adda_1 : after (start [(0x0400, [0x8B, 0x01])] { zero with a := 0x7F })
    (fun t => (t.a, t.pc, ccByte t.cc)) = some (0x80, 0x0402, 0x2A) := by
  decide

/-- T16, R108: ADDA #$01. -/
theorem test_adda_2 : after (start [(0x0400, [0x8B, 0x01])] { zero with a := 0xFF })
    (fun t => (t.a, t.pc, ccByte t.cc)) = some (0x00, 0x0402, 0x25) := by
  decide

/-- T17, R109: ADDB #$08. -/
theorem test_addb_1 : after (start [(0x0400, [0xCB, 0x08])] { zero with b := 0x08 })
    (fun t => (t.b, t.pc, ccByte t.cc)) = some (0x10, 0x0402, 0x20) := by
  decide

/-- T18, R106: ADCA #$00. -/
theorem test_adca_1 : after (start [(0x0400, [0x89, 0x00])] { zero with a := 0xFF, cc := ccOfByte 0x01 })
    (fun t => (t.a, t.pc, ccByte t.cc)) = some (0x00, 0x0402, 0x25) := by
  decide

/-- T19, R107: ADCB #$7F. -/
theorem test_adcb_1 : after (start [(0x0400, [0xC9, 0x7F])] { zero with b := 0x00, cc := ccOfByte 0x01 })
    (fun t => (t.b, t.pc, ccByte t.cc)) = some (0x80, 0x0402, 0x2A) := by
  decide

/-- T20, R200: SUBA #$01. -/
theorem test_suba_1 : after (start [(0x0400, [0x80, 0x01])] { zero with a := 0x00 })
    (fun t => (t.a, t.pc, nzvc t)) = some (0xFF, 0x0402, 0x9) := by
  decide

/-- T21, R200: SUBA #$01. -/
theorem test_suba_2 : after (start [(0x0400, [0x80, 0x01])] { zero with a := 0x80 })
    (fun t => (t.a, t.pc, nzvc t)) = some (0x7F, 0x0402, 0x2) := by
  decide

/-- T22, R201: SUBB #$05. -/
theorem test_subb_1 : after (start [(0x0400, [0xC0, 0x05])] { zero with b := 0x05, cc := ccOfByte 0x09 })
    (fun t => (t.b, t.pc, nzvc t)) = some (0x00, 0x0402, 0x4) := by
  decide

/-- T23, R190: SBCA #$00. -/
theorem test_sbca_1 : after (start [(0x0400, [0x82, 0x00])] { zero with a := 0x00, cc := ccOfByte 0x01 })
    (fun t => (t.a, t.pc, nzvc t)) = some (0xFF, 0x0402, 0x9) := by
  decide

/-- T24, R191: SBCB #$FF. -/
theorem test_sbcb_1 : after (start [(0x0400, [0xC2, 0xFF])] { zero with b := 0x00, cc := ccOfByte 0x01 })
    (fun t => (t.pc, nzvc t)) = some (0x0402, 0x5) := by
  decide

/-- T25, R125: CMPA #$0A. -/
theorem test_cmpa_1 : after (start [(0x0400, [0x81, 0x0A])] { zero with a := 0x09 })
    (fun t => (t.pc, nzvc t)) = some (0x0402, 0x9) := by
  decide

/-- T26, R126: CMPB #$80. -/
theorem test_cmpb_1 : after (start [(0x0400, [0xC1, 0x80])] { zero with b := 0x80 })
    (fun t => (t.pc, nzvc t)) = some (0x0402, 0x4) := by
  decide

/-- T27, R126: CMPB #$0A. -/
theorem test_cmpb_2 : after (start [(0x0400, [0xC1, 0x0A])] { zero with b := 0x86 })
    (fun t => (t.pc, nzvc t)) = some (0x0402, 0x2) := by
  decide

/-- T28, R171: NEGA. -/
theorem test_nega_1 : after (start [(0x0400, [0x40])] { zero with a := 0x80 })
    (fun t => (t.pc, nzvc t)) = some (0x0401, 0xB) := by
  decide

/-- T29, R171: NEGA. -/
theorem test_nega_2 : after (start [(0x0400, [0x40])] { zero with a := 0x00, cc := ccOfByte 0x01 })
    (fun t => (t.pc, nzvc t)) = some (0x0401, 0x4) := by
  decide

/-- T30, R172: NEGB. -/
theorem test_negb_1 : after (start [(0x0400, [0x50])] { zero with b := 0x01 })
    (fun t => (t.b, t.pc, nzvc t)) = some (0xFF, 0x0401, 0x9) := by
  decide

/-- T31, R173: NEG <$10. -/
theorem test_neg_1 : after (start [(0x0400, [0x00, 0x10]), (0x0010, [0x7F])] zero)
    (fun t => (t.pc, nzvc t, cellByte 0x0010 t)) = some (0x0402, 0x9, 0x81) := by
  decide

/-- T32, R143: INCA. -/
theorem test_inca_1 : after (start [(0x0400, [0x4C])] { zero with a := 0x7F, cc := ccOfByte 0x01 })
    (fun t => (t.a, t.pc, ccByte t.cc)) = some (0x80, 0x0401, 0x0B) := by
  decide

/-- T33, R143: INCA. -/
theorem test_inca_2 : after (start [(0x0400, [0x4C])] { zero with a := 0xFF })
    (fun t => (t.a, t.pc, ccByte t.cc)) = some (0x00, 0x0401, 0x04) := by
  decide

/-- T34, R137: DECA. -/
theorem test_deca_1 : after (start [(0x0400, [0x4A])] { zero with a := 0x80 })
    (fun t => (t.a, t.pc, ccByte t.cc)) = some (0x7F, 0x0401, 0x02) := by
  decide

/-- T35, R138: DECB. -/
theorem test_decb_1 : after (start [(0x0400, [0x5A])] { zero with b := 0x00 })
    (fun t => (t.b, t.pc, ccByte t.cc)) = some (0xFF, 0x0401, 0x08) := by
  decide

/-- T36, R139: DEC <$02. -/
theorem test_dec_1 : after (start [(0x0400, [0x0A, 0x02]), (0x0002, [0x00])] zero)
    (fun t => (t.pc, ccByte t.cc, cellByte 0x0002 t)) = some (0x0402, 0x08, 0xFF) := by
  decide

/-- T37, R145: INC $1234. -/
theorem test_inc_1 : after (start [(0x0400, [0x7C, 0x12, 0x34]), (0x1234, [0xFE])] zero)
    (fun t => (t.pc, ccByte t.cc, cellByte 0x1234 t)) = some (0x0403, 0x08, 0xFF) := by
  decide

/-- T38, R136: DAA. -/
theorem test_daa_1 : after (start [(0x0400, [0x19])] { zero with a := 0x0A })
    (fun t => (t.a, t.pc, ccByte t.cc)) = some (0x10, 0x0401, 0x00) := by
  decide

/-- T39, R136: DAA. -/
theorem test_daa_2 : after (start [(0x0400, [0x19])] { zero with a := 0x9A })
    (fun t => (t.a, t.pc, ccByte t.cc)) = some (0x00, 0x0401, 0x05) := by
  decide

/-- T42, R170: MUL. -/
theorem test_mul_1 : after (start [(0x0400, [0x3D])] { zero with a := 0xFF, b := 0xFF })
    (fun t => (t.a, t.b, t.pc, ccByte t.cc)) = some (0xFE, 0x01, 0x0401, 0x00) := by
  decide

/-- T43, R170: MUL. -/
theorem test_mul_2 : after (start [(0x0400, [0x3D])] { zero with a := 0x0C, b := 0x0B })
    (fun t => (t.a, t.b, t.pc, ccByte t.cc)) = some (0x00, 0x84, 0x0401, 0x01) := by
  decide

/-- T45, R192: SEX. -/
theorem test_sex_1 : after (start [(0x0400, [0x1D])] { zero with b := 0x80, cc := ccOfByte 0x02 })
    (fun t => (t.a, t.pc, ccByte t.cc)) = some (0xFF, 0x0401, 0x08) := by
  decide

/-- T46, R192: SEX. -/
theorem test_sex_2 : after (start [(0x0400, [0x1D])] { zero with a := 0xFF, b := 0x00 })
    (fun t => (t.a, t.pc, ccByte t.cc)) = some (0x00, 0x0401, 0x04) := by
  decide

/-- T47, R105: ABX. -/
theorem test_abx_1 : after (start [(0x0400, [0x3A])] { zero with b := 0xFF, x := 0xFF02, cc := ccOfByte 0x0F })
    (fun t => (t.x, t.pc, ccByte t.cc)) = some (0x0001, 0x0401, 0x0F) := by
  decide

/-- T48, R122: CLRA. -/
theorem test_clra_1 : after (start [(0x0400, [0x4F])] { zero with a := 0x55, cc := ccOfByte 0x2B })
    (fun t => (t.a, t.pc, ccByte t.cc)) = some (0x00, 0x0401, 0x24) := by
  decide

/-- T49, R124: CLR $F019. -/
theorem test_clr_1 : after (start [(0x0400, [0x7F, 0xF0, 0x19])] { zero with cc := ccOfByte 0x01 })
    (fun t => (t.pc, ccByte t.cc)) = some (0x0403, 0x04) := by
  decide

/-- T50, R132: COMA. -/
theorem test_coma_1 : after (start [(0x0400, [0x43])] { zero with a := 0x00 })
    (fun t => (t.a, t.pc, ccByte t.cc)) = some (0xFF, 0x0401, 0x09) := by
  decide

/-- T51, R133: COMB. -/
theorem test_comb_1 : after (start [(0x0400, [0x53])] { zero with b := 0xFF })
    (fun t => (t.b, t.pc, ccByte t.cc)) = some (0x00, 0x0401, 0x05) := by
  decide

/-- T52, R208: TSTA. -/
theorem test_tsta_1 : after (start [(0x0400, [0x4D])] { zero with a := 0x80, cc := ccOfByte 0x03 })
    (fun t => (t.pc, ccByte t.cc)) = some (0x0401, 0x09) := by
  decide

/-- T53, R210: TST <$02. -/
theorem test_tst_1 : after (start [(0x0400, [0x0D, 0x02]), (0x0002, [0x00])] zero)
    (fun t => (t.pc, ccByte t.cc)) = some (0x0402, 0x04) := by
  decide

/-- T54, R110: ADDD #$0001. -/
theorem test_addd_1 : after (start [(0x0400, [0xC3, 0x00, 0x01])] { zero with a := 0x7F, b := 0xFF })
    (fun t => (t.a, t.b, t.pc, ccByte t.cc)) = some (0x80, 0x00, 0x0403, 0x0A) := by
  decide

/-- T55, R110: ADDD #$0001. -/
theorem test_addd_2 : after (start [(0x0400, [0xC3, 0x00, 0x01])] { zero with a := 0xFF, b := 0xFF, cc := ccOfByte 0x20 })
    (fun t => (t.a, t.b, t.pc, ccByte t.cc)) = some (0x00, 0x00, 0x0403, 0x25) := by
  decide

/-- T56, R202: SUBD #$0001. -/
theorem test_subd_1 : after (start [(0x0400, [0x83, 0x00, 0x01])] { zero with a := 0x00, b := 0x00 })
    (fun t => (t.a, t.b, t.pc, ccByte t.cc)) = some (0xFF, 0xFF, 0x0403, 0x09) := by
  decide

/-- T57, R202: SUBD <$10. -/
theorem test_subd_2 : after (start [(0x0400, [0x93, 0x10]), (0x0010, [0x00, 0x01])] { zero with a := 0x80, b := 0x00 })
    (fun t => (t.a, t.b, t.pc, ccByte t.cc)) = some (0x7F, 0xFF, 0x0402, 0x02) := by
  decide

/-- T58, R127: CMPD #$1234. -/
theorem test_cmpd_1 : after (start [(0x0400, [0x10, 0x83, 0x12, 0x34])] { zero with a := 0x12, b := 0x34 })
    (fun t => (t.pc, ccByte t.cc)) = some (0x0404, 0x04) := by
  decide

/-- T59, R130: CMPX #$0001. -/
theorem test_cmpx_1 : after (start [(0x0400, [0x8C, 0x00, 0x01])] { zero with x := 0x0000 })
    (fun t => (t.pc, ccByte t.cc)) = some (0x0403, 0x09) := by
  decide

/-- T60, R131: CMPY #$8000. -/
theorem test_cmpy_1 : after (start [(0x0400, [0x10, 0x8C, 0x80, 0x00])] { zero with y := 0x7FFF })
    (fun t => (t.pc, ccByte t.cc)) = some (0x0404, 0x0B) := by
  decide

/-- T61, R129: CMPU #$0000. -/
theorem test_cmpu_1 : after (start [(0x0400, [0x11, 0x83, 0x00, 0x00])] { zero with u := 0x8000 })
    (fun t => (t.pc, ccByte t.cc)) = some (0x0404, 0x08) := by
  decide

/-- T62, R128: CMPS >$1000. -/
theorem test_cmps_1 : after (start [(0x0400, [0x11, 0xBC, 0x10, 0x00]), (0x1000, [0x01, 0x00])] { zero with s := 0x0100 })
    (fun t => (t.pc, ccByte t.cc)) = some (0x0404, 0x04) := by
  decide

/-- T63, R111: ANDA #$0F. -/
theorem test_anda_1 : after (start [(0x0400, [0x84, 0x0F])] { zero with a := 0xF0, cc := ccOfByte 0x03 })
    (fun t => (t.a, t.pc, ccByte t.cc)) = some (0x00, 0x0402, 0x05) := by
  decide

/-- T64, R112: ANDB #$08. -/
theorem test_andb_1 : after (start [(0x0400, [0xC4, 0x08])] { zero with b := 0x3C })
    (fun t => (t.b, t.pc, ccByte t.cc)) = some (0x08, 0x0402, 0x00) := by
  decide

/-- T65, R120: BITA #$80. -/
theorem test_bita_1 : after (start [(0x0400, [0x85, 0x80])] { zero with a := 0xFF })
    (fun t => (t.pc, ccByte t.cc)) = some (0x0402, 0x08) := by
  decide

/-- T66, R121: BITB #$01. -/
theorem test_bitb_1 : after (start [(0x0400, [0xC5, 0x01])] { zero with b := 0xFE })
    (fun t => (t.pc, ccByte t.cc)) = some (0x0402, 0x04) := by
  decide

/-- T67, R140: EORA #$FF. -/
theorem test_eora_1 : after (start [(0x0400, [0x88, 0xFF])] { zero with a := 0xFF })
    (fun t => (t.a, t.pc, ccByte t.cc)) = some (0x00, 0x0402, 0x04) := by
  decide

/-- T68, R141: EORB #$0F. -/
theorem test_eorb_1 : after (start [(0x0400, [0xC8, 0x0F])] { zero with b := 0xF0 })
    (fun t => (t.b, t.pc, ccByte t.cc)) = some (0xFF, 0x0402, 0x08) := by
  decide

/-- T69, R175: ORA #$80. -/
theorem test_ora_1 : after (start [(0x0400, [0x8A, 0x80])] { zero with a := 0x01, cc := ccOfByte 0x02 })
    (fun t => (t.a, t.pc, ccByte t.cc)) = some (0x81, 0x0402, 0x08) := by
  decide

/-- T70, R176: ORB <$01. -/
theorem test_orb_1 : after (start [(0x0400, [0xDA, 0x01]), (0x0001, [0x50])] { zero with b := 0x07 })
    (fun t => (t.b, t.pc, ccByte t.cc)) = some (0x57, 0x0402, 0x00) := by
  decide

/-- T71, R113: ANDCC #$EF. -/
theorem test_andcc_1 : after (start [(0x0400, [0x1C, 0xEF])] { zero with cc := ccOfByte 0xFF })
    (fun t => (t.pc, ccByte t.cc)) = some (0x0402, 0xEF) := by
  decide

/-- T72, R113: ANDCC #$00. -/
theorem test_andcc_2 : after (start [(0x0400, [0x1C, 0x00])] { zero with cc := ccOfByte 0xFF })
    (fun t => (t.pc, ccByte t.cc)) = some (0x0402, 0x00) := by
  decide

/-- T73, R177: ORCC #$50. -/
theorem test_orcc_1 : after (start [(0x0400, [0x1A, 0x50])] zero)
    (fun t => (t.pc, ccByte t.cc)) = some (0x0402, 0x50) := by
  decide

/-- T74, R177: ORCC #$01. -/
theorem test_orcc_2 : after (start [(0x0400, [0x1A, 0x01])] { zero with cc := ccOfByte 0x80 })
    (fun t => (t.pc, ccByte t.cc)) = some (0x0402, 0x81) := by
  decide

/-- T75, R114: ASLA. -/
theorem test_asla_1 : after (start [(0x0400, [0x48])] { zero with a := 0x80 })
    (fun t => (t.a, t.pc, nzvc t)) = some (0x00, 0x0401, 0x7) := by
  decide

/-- T76, R114: ASLA. -/
theorem test_asla_2 : after (start [(0x0400, [0x48])] { zero with a := 0x40 })
    (fun t => (t.a, t.pc, nzvc t)) = some (0x80, 0x0401, 0xA) := by
  decide

/-- T78, R116: ASL <$01. -/
theorem test_asl_1 : after (start [(0x0400, [0x08, 0x01]), (0x0001, [0x81])] zero)
    (fun t => (t.pc, nzvc t, cellByte 0x0001 t)) = some (0x0402, 0x3, 0x02) := by
  decide

/-- T79, R184: ROL <$00. -/
theorem test_rol_1 : after (start [(0x0400, [0x09, 0x00]), (0x0000, [0x40])] { zero with cc := ccOfByte 0x01 })
    (fun t => (t.pc, ccByte t.cc, cellByte 0x0000 t)) = some (0x0402, 0x0A, 0x81) := by
  decide

/-- T80, R117: ASRA. -/
theorem test_asra_1 : after (start [(0x0400, [0x47])] { zero with a := 0x81 })
    (fun t => (t.a, t.pc, nzvc t)) = some (0xC0, 0x0401, 0x9) := by
  decide

/-- T81, R118: ASRB. -/
theorem test_asrb_1 : after (start [(0x0400, [0x57])] { zero with b := 0x01 })
    (fun t => (t.b, t.pc, nzvc t)) = some (0x00, 0x0401, 0x5) := by
  decide

/-- T82, R167: LSRA. -/
theorem test_lsra_1 : after (start [(0x0400, [0x44])] { zero with a := 0x01, cc := ccOfByte 0x08 })
    (fun t => (t.a, t.pc, ccByte t.cc)) = some (0x00, 0x0401, 0x05) := by
  decide

/-- T83, R168: LSRB. -/
theorem test_lsrb_1 : after (start [(0x0400, [0x54])] { zero with b := 0x80 })
    (fun t => (t.b, t.pc, ccByte t.cc)) = some (0x40, 0x0401, 0x00) := by
  decide

/-- T84, R182: ROLA. -/
theorem test_rola_1 : after (start [(0x0400, [0x49])] { zero with a := 0x80, cc := ccOfByte 0x01 })
    (fun t => (t.a, t.pc, ccByte t.cc)) = some (0x01, 0x0401, 0x03) := by
  decide

/-- T85, R183: ROLB. -/
theorem test_rolb_1 : after (start [(0x0400, [0x59])] { zero with b := 0x40 })
    (fun t => (t.b, t.pc, ccByte t.cc)) = some (0x80, 0x0401, 0x0A) := by
  decide

/-- T86, R185: RORA. -/
theorem test_rora_1 : after (start [(0x0400, [0x46])] { zero with a := 0x01 })
    (fun t => (t.a, t.pc, ccByte t.cc)) = some (0x00, 0x0401, 0x05) := by
  decide

/-- T87, R186: RORB. -/
theorem test_rorb_1 : after (start [(0x0400, [0x56])] { zero with b := 0x00, cc := ccOfByte 0x01 })
    (fun t => (t.b, t.pc, ccByte t.cc)) = some (0x80, 0x0401, 0x08) := by
  decide

/-- T88, R187: ROR $2000. -/
theorem test_ror_1 : after (start [(0x0400, [0x76, 0x20, 0x00]), (0x2000, [0x02])] { zero with cc := ccOfByte 0x01 })
    (fun t => (t.pc, ccByte t.cc, cellByte 0x2000 t)) = some (0x0403, 0x08, 0x81) := by
  decide

/-- T89, R169: LSR ,X. -/
theorem test_lsr_1 : after (start [(0x0400, [0x64, 0x84]), (0x2000, [0xFF])] { zero with x := 0x2000 })
    (fun t => (t.pc, ccByte t.cc, cellByte 0x2000 t)) = some (0x0402, 0x01, 0x7F) := by
  decide

/-- T111, R162: LEAX -1,X. -/
theorem test_leax_1 : after (start [(0x0400, [0x30, 0x1F])] { zero with x := 0x0001 })
    (fun t => (t.x, t.pc, ccByte t.cc)) = some (0x0000, 0x0402, 0x04) := by
  decide

/-- T112, R162: LEAX ,X+. -/
theorem test_leax_2 : after (start [(0x0400, [0x30, 0x80])] { zero with x := 0x1000 })
    (fun t => (t.pc, ccByte t.cc)) = some (0x0402, 0x00) := by
  decide

/-- T113, R163: LEAY D,Y. -/
theorem test_leay_1 : after (start [(0x0400, [0x31, 0xAB])] { zero with a := 0x01, b := 0x02, y := 0x1000, cc := ccOfByte 0x04 })
    (fun t => (t.y, t.pc, ccByte t.cc)) = some (0x1102, 0x0402, 0x00) := by
  decide

/-- T114, R160: LEAS -2,S. -/
theorem test_leas_1 : after (start [(0x0400, [0x32, 0x7E])] { zero with s := 0x0800, cc := ccOfByte 0x04 })
    (fun t => (t.s, t.pc, ccByte t.cc, t.nmiArmed)) = some (0x07FE, 0x0402, 0x04, true) := by
  decide

/-- T115, R161: LEAU 1,U. -/
theorem test_leau_1 : after (start [(0x0400, [0x33, 0x41])] { zero with u := 0xFFFF })
    (fun t => (t.u, t.pc, ccByte t.cc)) = some (0x0000, 0x0402, 0x00) := by
  decide

/-- T116, R207: TFR A,B. -/
theorem test_tfr_1 : after (start [(0x0400, [0x1F, 0x89])] { zero with a := 0x5A, cc := ccOfByte 0x0F })
    (fun t => (t.b, t.pc, ccByte t.cc)) = some (0x5A, 0x0402, 0x0F) := by
  decide

/-- T117, R207: TFR X,S. -/
theorem test_tfr_2 : after (start [(0x0400, [0x1F, 0x14])] { zero with x := 0x0800 })
    (fun t => (t.s, t.pc, ccByte t.cc, t.nmiArmed)) = some (0x0800, 0x0402, 0x00, true) := by
  decide

/-- T124, R142: EXG D,X. -/
theorem test_exg_1 : after (start [(0x0400, [0x1E, 0x01])] { zero with a := 0x12, b := 0x34, x := 0xABCD })
    (fun t => (t.a, t.b, t.x, t.pc, ccByte t.cc)) = some (0xAB, 0xCD, 0x1234, 0x0402, 0x00) := by
  decide

/-- T125, R142: EXG A,B. -/
theorem test_exg_2 : after (start [(0x0400, [0x1E, 0x89])] { zero with a := 0x01, b := 0x02 })
    (fun t => (t.a, t.b, t.pc, ccByte t.cc)) = some (0x02, 0x01, 0x0402, 0x00) := by
  decide

/-- T128, R178: PSHS PC,U,Y,X,DP,B,A,CC. -/
theorem test_pshs_1 : after (start [(0x0400, [0x34, 0xFF])] framed)
    (fun t => (t.s, t.pc, ccByte t.cc, cellByte 0x07FF t, cellByte 0x07FE t, cellByte 0x07F4 t)) = some (0x07F4, 0x0402, 0x05,
      0x02, 0x04, 0x05) := by
  decide

/-- T129, R178: PSHS A,B. -/
theorem test_pshs_2 : after (start [(0x0400, [0x34, 0x06])] { zero with a := 0x11, b := 0x22, s := 0x0800 })
    (fun t => (t.s, t.pc, ccByte t.cc, cellByte 0x07FF t, cellByte 0x07FE t)) = some (0x07FE, 0x0402, 0x00, 0x22, 0x11) := by
  decide

/-- T131, R180: PULS A,B,X. -/
theorem test_puls_1 : after (start [(0x0400, [0x35, 0x16]), (0x07FC, [0x11, 0x22, 0x33, 0x44])] { zero with s := 0x07FC })
    (fun t => (t.a, t.b, t.x, t.s, t.pc, ccByte t.cc)) = some (0x11, 0x22, 0x3344, 0x0800, 0x0402, 0x00) := by
  decide

/-- T132, R180: PULS CC,PC. -/
theorem test_puls_2 : after (start [(0x0400, [0x35, 0x81]), (0x07FD, [0x05, 0x12, 0x34])] { zero with s := 0x07FD })
    (fun t => (t.s, t.pc, ccByte t.cc)) = some (0x0800, 0x1234, 0x05) := by
  decide

/-- T133, R179: PSHU S,A. -/
theorem test_pshu_1 : after (start [(0x0400, [0x36, 0x42])] { zero with a := 0x11, u := 0x0700, s := 0x0800 })
    (fun t => (t.u, t.pc, ccByte t.cc, cellByte 0x06FF t, cellByte 0x06FE t, cellByte 0x06FD t)) = some (0x06FD, 0x0402, 0x00,
      0x00, 0x08, 0x11) := by
  decide

/-- T134, R181: PULU S. -/
theorem test_pulu_1 : after (start [(0x0400, [0x37, 0x40]), (0x06FE, [0x08, 0x00])] { zero with u := 0x06FE })
    (fun t => (t.u, t.s, t.pc, ccByte t.cc, t.nmiArmed)) = some (0x0700, 0x0800, 0x0402, 0x00, true) := by
  decide

/-- T135, R147: JSR $F110. -/
theorem test_jsr_1 : after (start [(0x0400, [0xBD, 0xF1, 0x10])] { zero with s := 0x0800 })
    (fun t => (t.s, t.pc, ccByte t.cc, cellByte 0x07FF t, cellByte 0x07FE t)) = some (0x07FE, 0xF110, 0x00, 0x03, 0x04) := by
  decide

/-- T136, R147: JSR [,X]. -/
theorem test_jsr_2 : after (start [(0x0400, [0xAD, 0x94]), (0x002E, [0x04, 0x53])] { zero with x := 0x002E, s := 0x0800 })
    (fun t => (t.s, t.pc, ccByte t.cc, cellByte 0x07FF t, cellByte 0x07FE t)) = some (0x07FE, 0x0453, 0x00, 0x02, 0x04) := by
  decide

/-- T137, R189: RTS. -/
theorem test_rts_1 : after (start [(0x0400, [0x39]), (0x07FE, [0x04, 0x03])] { zero with s := 0x07FE })
    (fun t => (t.s, t.pc, ccByte t.cc)) = some (0x0800, 0x0403, 0x00) := by
  decide

/-- T138, R255: BSR *+$12. -/
theorem test_bsr_1 : after (start [(0x0400, [0x8D, 0x10])] { zero with s := 0x0800 })
    (fun t => (t.s, t.pc, ccByte t.cc, cellByte 0x07FF t, cellByte 0x07FE t)) = some (0x07FE, 0x0412, 0x00, 0x02, 0x04) := by
  decide

/-- T139, R256: LBSR. -/
theorem test_lbsr_1 : after (start [(0x0400, [0x17, 0xFF, 0xFD])] { zero with s := 0x0800 })
    (fun t => (t.s, t.pc, ccByte t.cc, cellByte 0x07FF t, cellByte 0x07FE t)) = some (0x07FE, 0x0400, 0x00, 0x03, 0x04) := by
  decide

/-- T140, R146: JMP <$10. -/
theorem test_jmp_1 : after (start [(0x0400, [0x0E, 0x10])] { zero with dp := 0x20 })
    (fun t => (t.pc, ccByte t.cc)) = some (0x2010, 0x00) := by
  decide

/-- T141, R146: JMP [$002E]. -/
theorem test_jmp_2 : after (start [(0x0400, [0x6E, 0x9F, 0x00, 0x2E]), (0x002E, [0x04, 0x53])] zero)
    (fun t => (t.pc, ccByte t.cc)) = some (0x0453, 0x00) := by
  decide

/-- T142, R174: NOP. -/
theorem test_nop_1 : after (start [(0x0400, [0x12])] { zero with cc := ccOfByte 0xFF })
    (fun t => (t.pc, ccByte t.cc)) = some (0x0401, 0xFF) := by
  decide

/-- T143, R247: BNE *-5. -/
theorem test_bne_1 : after (start [(0x0400, [0x26, 0xF9])] zero)
    (fun t => (t.pc, ccByte t.cc)) = some (0x03FB, 0x00) := by
  decide

/-- T144, R247: BNE *-5. -/
theorem test_bne_2 : after (start [(0x0400, [0x26, 0xF9])] { zero with cc := ccOfByte 0x04 })
    (fun t => (t.pc, ccByte t.cc)) = some (0x0402, 0x04) := by
  decide

/-- T145, R245: BMI. -/
theorem test_bmi_1 : after (start [(0x0415, [0x2B, 0x1D])] { zero with pc := 0x0415, cc := ccOfByte 0x08 })
    (fun t => (t.pc, ccByte t.cc)) = some (0x0434, 0x08) := by
  decide

/-- T146, R251: BRA. -/
theorem test_bra_1 : after (start [(0x0400, [0x20, 0xFE])] zero)
    (fun t => (t.pc, ccByte t.cc)) = some (0x0400, 0x00) := by
  decide

/-- T147, R251: BRA. -/
theorem test_bra_2 : after (start [(0xFFF0, [0x20, 0x7F])] { zero with pc := 0xFFF0 })
    (fun t => (t.pc, ccByte t.cc)) = some (0x0071, 0x00) := by
  decide

/-- T148, R253: BRN. -/
theorem test_brn_1 : after (start [(0x0400, [0x21, 0x10])] zero)
    (fun t => (t.pc, ccByte t.cc)) = some (0x0402, 0x00) := by
  decide

/-- T149, R252: LBRA. -/
theorem test_lbra_1 : after (start [(0x0400, [0x16, 0x80, 0x00])] zero)
    (fun t => (t.pc, ccByte t.cc)) = some (0x8403, 0x00) := by
  decide

/-- T150, R228: LBEQ. -/
theorem test_lbeq_1 : after (start [(0x0400, [0x10, 0x27, 0x01, 0x00])] { zero with cc := ccOfByte 0x04 })
    (fun t => (t.pc, ccByte t.cc)) = some (0x0504, 0x04) := by
  decide

/-- T151, R228: LBEQ. -/
theorem test_lbeq_2 : after (start [(0x0400, [0x10, 0x27, 0x01, 0x00])] zero)
    (fun t => (t.pc, ccByte t.cc)) = some (0x0404, 0x00) := by
  decide

/-- T152, R233: BHI. -/
theorem test_bhi_1 : after (start [(0x0400, [0x22, 0x10])] zero)
    (fun t => (t.pc, ccByte t.cc)) = some (0x0412, 0x00) := by
  decide

/-- T153, R233: BHI. -/
theorem test_bhi_2 : after (start [(0x0400, [0x22, 0x10])] { zero with cc := ccOfByte 0x04 })
    (fun t => (t.pc, ccByte t.cc)) = some (0x0402, 0x04) := by
  decide

/-- T154, R241: BLS. -/
theorem test_bls_1 : after (start [(0x0400, [0x23, 0x10])] { zero with cc := ccOfByte 0x01 })
    (fun t => (t.pc, ccByte t.cc)) = some (0x0412, 0x01) := by
  decide

/-- T155, R229: BGE. -/
theorem test_bge_1 : after (start [(0x0400, [0x2C, 0x10])] { zero with cc := ccOfByte 0x0A })
    (fun t => (t.pc, ccByte t.cc)) = some (0x0412, 0x0A) := by
  decide

/-- T156, R243: BLT. -/
theorem test_blt_1 : after (start [(0x0400, [0x2D, 0x10])] { zero with cc := ccOfByte 0x08 })
    (fun t => (t.pc, ccByte t.cc)) = some (0x0412, 0x08) := by
  decide

/-- T157, R231: BGT. -/
theorem test_bgt_1 : after (start [(0x0400, [0x2E, 0x10])] { zero with cc := ccOfByte 0x04 })
    (fun t => (t.pc, ccByte t.cc)) = some (0x0402, 0x04) := by
  decide

/-- T158, R237: BLE. -/
theorem test_ble_1 : after (start [(0x0400, [0x2F, 0x10])] { zero with cc := ccOfByte 0x04 })
    (fun t => (t.pc, ccByte t.cc)) = some (0x0412, 0x04) := by
  decide

/-- T159, R235: BHS. -/
theorem test_bhs_1 : after (start [(0x041C, [0x24, 0xF9])] { zero with pc := 0x041C })
    (fun t => (t.pc, ccByte t.cc)) = some (0x0417, 0x00) := by
  decide

/-- T160, R249: BPL. -/
theorem test_bpl_1 : after (start [(0x044E, [0x2A, 0xC2])] { zero with pc := 0x044E })
    (fun t => (t.pc, ccByte t.cc)) = some (0x0412, 0x00) := by
  decide

/-- T161, R257: BVC. -/
theorem test_bvc_1 : after (start [(0x0400, [0x28, 0x02])] { zero with cc := ccOfByte 0x02 })
    (fun t => (t.pc, ccByte t.cc)) = some (0x0402, 0x02) := by
  decide

/-- T162, R259: BVS. -/
theorem test_bvs_1 : after (start [(0x0400, [0x29, 0x02])] { zero with cc := ccOfByte 0x02 })
    (fun t => (t.pc, ccByte t.cc)) = some (0x0404, 0x02) := by
  decide

/-- T163, R203: SWI. -/
theorem test_swi_1 : after (start [vectors, (0x0400, [0x3F])] framed)
    (fun t => (t.s, t.pc, ccByte t.cc, cellByte 0x07FF t, cellByte 0x07FE t, cellByte 0x07F4 t)) = some (0x07F4, 0xE0A0, 0xD5,
      0x01, 0x04, 0x85) := by
  decide

/-- T164, R204: SWI2. -/
theorem test_swi2_1 : after (start [vectors, (0x0400, [0x10, 0x3F])] framed)
    (fun t => (t.s, t.pc, ccByte t.cc, cellByte 0x07FF t, cellByte 0x07FE t, cellByte 0x07F4 t)) = some (0x07F4, 0xE020, 0x85,
      0x02, 0x04, 0x85) := by
  decide

/-- T165, R205: SWI3. -/
theorem test_swi3_1 : after (start [vectors, (0x0400, [0x11, 0x3F])] framed)
    (fun t => (t.s, t.pc, ccByte t.cc, cellByte 0x07FF t, cellByte 0x07FE t, cellByte 0x07F4 t)) = some (0x07F4, 0xE030, 0x85,
      0x02, 0x04, 0x85) := by
  decide

/-- T166, R188: RTI. -/
theorem test_rti_1 : after (start [vectors, (0xE0A0, [0x3B]), (0x07F4, [0x85, 0x11, 0x22, 0x33, 0x44, 0x55, 0x66, 0x77, 0x88,
      0x99, 0x04, 0x01])] { zero with s := 0x07F4, pc := 0xE0A0, cc := ccOfByte 0xD5 })
    (fun t => (t.a, t.b, t.x, t.y, t.u, t.s, t.dp, t.pc, ccByte t.cc)) = some (0x11, 0x22, 0x4455, 0x6677, 0x8899, 0x0800,
      0x33, 0x0401, 0x85) := by
  decide

/-- T167, R188: RTI. -/
theorem test_rti_2 : after (start [vectors, (0xE060, [0x3B]), (0x07FD, [0x05, 0x04, 0x01])]
      { zero with a := 0x77, s := 0x07FD, pc := 0xE060, cc := ccOfByte 0x55 })
    (fun t => (t.s, t.pc, ccByte t.cc)) = some (0x0800, 0x0401, 0x05) := by
  decide

/-- T173, R135: CWAI #$EF. -/
theorem test_cwai_1 : after (start [vectors, (0x0400, [0x3C, 0xEF])] { framed with cc := ccOfByte 0x15 })
    (fun t => (t.s, t.pc, ccByte t.cc, cellByte 0x07FF t, cellByte 0x07F4 t, t.wait)) = some (0x07F4, 0x0402, 0x85, 0x02,
      0x85, Wait.cwai) := by
  decide

/-- T176, R206: SYNC. -/
theorem test_sync_1 : after (start [(0x0400, [0x13])] { zero with cc := ccOfByte 0x10 })
    (fun t => (t.pc, ccByte t.cc, t.wait)) = some (0x0401, 0x10, Wait.sync) := by
  decide

/-- R115: ASLB, by hand. -/
theorem test_aslb_1 : after (start [(0x0400, [0x58])] { zero with b := 0xC1 })
    (fun t => (t.b, t.pc, nzvc t)) = some (0x82, 0x0401, 0x9) := by
  decide

/-- R119: ASR <$10, by hand. -/
theorem test_asr_1 : after (start [(0x0400, [0x07, 0x10]), (0x0010, [0x85])] zero)
    (fun t => (t.pc, nzvc t, cellByte 0x0010 t)) = some (0x0402, 0x9, 0xC2) := by
  decide

/-- R123: CLRB, by hand. -/
theorem test_clrb_1 : after (start [(0x0400, [0x5F])] { zero with b := 0x55, cc := ccOfByte 0x2B })
    (fun t => (t.b, t.pc, ccByte t.cc)) = some (0x00, 0x0401, 0x24) := by
  decide

/-- R134: COM $2000, by hand. -/
theorem test_com_1 : after (start [(0x0400, [0x73, 0x20, 0x00]), (0x2000, [0x0F])] { zero with cc := ccOfByte 0x02 })
    (fun t => (t.pc, ccByte t.cc, cellByte 0x2000 t)) = some (0x0403, 0x09, 0xF0) := by
  decide

/-- R144: INCB, by hand. -/
theorem test_incb_1 : after (start [(0x0400, [0x5C])] { zero with b := 0x7F, cc := ccOfByte 0x01 })
    (fun t => (t.b, t.pc, ccByte t.cc)) = some (0x80, 0x0401, 0x0B) := by
  decide

/-- R194: STB ,-X, by hand. -/
theorem test_stb_1 : after (start [(0x0400, [0xE7, 0x82])] { zero with b := 0x91, x := 0x2001, cc := ccOfByte 0x03 })
    (fun t => (t.x, t.pc, ccByte t.cc, cellByte 0x2000 t)) = some (0x2000, 0x0402, 0x09, 0x91) := by
  decide

/-- R197: STU ,U++, by hand. -/
theorem test_stu_1 : after (start [(0x0400, [0xEF, 0xC1])] { zero with u := 0x2000 })
    (fun t => (t.u, t.pc, ccByte t.cc, cellByte 0x2000 t, cellByte 0x2001 t)) = some (0x2002, 0x0402, 0x00, 0x20, 0x02) := by
  decide

/-- R209: TSTB, by hand. -/
theorem test_tstb_1 : after (start [(0x0400, [0x5D])] { zero with b := 0x00, cc := ccOfByte 0x0B })
    (fun t => (t.b, t.pc, ccByte t.cc)) = some (0x00, 0x0401, 0x05) := by
  decide

/-- R223: taken, by hand. -/
theorem test_bcc_1 : after (start [(0x0400, [0x24, 0xF9])] { zero with cc := ccOfByte 0x0E })
    (fun t => (t.pc, ccByte t.cc)) = some (0x03FB, 0x0E) := by
  decide

/-- R223: not taken, by hand. -/
theorem test_bcc_2 : after (start [(0x0400, [0x24, 0xF9])] { zero with cc := ccOfByte 0x0F })
    (fun t => (t.pc, ccByte t.cc)) = some (0x0402, 0x0F) := by
  decide

/-- R225: taken, by hand. -/
theorem test_bcs_1 : after (start [(0x0400, [0x25, 0xF9])] { zero with cc := ccOfByte 0x01 })
    (fun t => (t.pc, ccByte t.cc)) = some (0x03FB, 0x01) := by
  decide

/-- R225: not taken, by hand. -/
theorem test_bcs_2 : after (start [(0x0400, [0x25, 0xF9])] { zero with cc := ccOfByte 0x0E })
    (fun t => (t.pc, ccByte t.cc)) = some (0x0402, 0x0E) := by
  decide

/-- R227: taken, by hand. -/
theorem test_beq_1 : after (start [(0x0400, [0x27, 0xF9])] { zero with cc := ccOfByte 0x04 })
    (fun t => (t.pc, ccByte t.cc)) = some (0x03FB, 0x04) := by
  decide

/-- R227: not taken, by hand. -/
theorem test_beq_2 : after (start [(0x0400, [0x27, 0xF9])] { zero with cc := ccOfByte 0x0B })
    (fun t => (t.pc, ccByte t.cc)) = some (0x0402, 0x0B) := by
  decide

/-- R224: taken, by hand. -/
theorem test_lbcc_1 : after (start [(0x0400, [0x10, 0x24, 0xFF, 0x00])] { zero with cc := ccOfByte 0x0E })
    (fun t => (t.pc, ccByte t.cc)) = some (0x0304, 0x0E) := by
  decide

/-- R224: not taken, by hand. -/
theorem test_lbcc_2 : after (start [(0x0400, [0x10, 0x24, 0xFF, 0x00])] { zero with cc := ccOfByte 0x0F })
    (fun t => (t.pc, ccByte t.cc)) = some (0x0404, 0x0F) := by
  decide

/-- R226: taken, by hand. -/
theorem test_lbcs_1 : after (start [(0x0400, [0x10, 0x25, 0xFF, 0x00])] { zero with cc := ccOfByte 0x01 })
    (fun t => (t.pc, ccByte t.cc)) = some (0x0304, 0x01) := by
  decide

/-- R226: not taken, by hand. -/
theorem test_lbcs_2 : after (start [(0x0400, [0x10, 0x25, 0xFF, 0x00])] { zero with cc := ccOfByte 0x0E })
    (fun t => (t.pc, ccByte t.cc)) = some (0x0404, 0x0E) := by
  decide

/-- R230: taken, by hand. -/
theorem test_lbge_1 : after (start [(0x0400, [0x10, 0x2C, 0xFF, 0x00])] { zero with cc := ccOfByte 0x0A })
    (fun t => (t.pc, ccByte t.cc)) = some (0x0304, 0x0A) := by
  decide

/-- R230: not taken, by hand. -/
theorem test_lbge_2 : after (start [(0x0400, [0x10, 0x2C, 0xFF, 0x00])] { zero with cc := ccOfByte 0x02 })
    (fun t => (t.pc, ccByte t.cc)) = some (0x0404, 0x02) := by
  decide

/-- R232: taken, by hand. -/
theorem test_lbgt_1 : after (start [(0x0400, [0x10, 0x2E, 0xFF, 0x00])] { zero with cc := ccOfByte 0x0A })
    (fun t => (t.pc, ccByte t.cc)) = some (0x0304, 0x0A) := by
  decide

/-- R232: not taken, by hand. -/
theorem test_lbgt_2 : after (start [(0x0400, [0x10, 0x2E, 0xFF, 0x00])] { zero with cc := ccOfByte 0x0E })
    (fun t => (t.pc, ccByte t.cc)) = some (0x0404, 0x0E) := by
  decide

/-- R234: taken, by hand. -/
theorem test_lbhi_1 : after (start [(0x0400, [0x10, 0x22, 0xFF, 0x00])] { zero with cc := ccOfByte 0x0A })
    (fun t => (t.pc, ccByte t.cc)) = some (0x0304, 0x0A) := by
  decide

/-- R234: not taken, by hand. -/
theorem test_lbhi_2 : after (start [(0x0400, [0x10, 0x22, 0xFF, 0x00])] { zero with cc := ccOfByte 0x0B })
    (fun t => (t.pc, ccByte t.cc)) = some (0x0404, 0x0B) := by
  decide

/-- R238: taken, by hand. -/
theorem test_lble_1 : after (start [(0x0400, [0x10, 0x2F, 0xFF, 0x00])] { zero with cc := ccOfByte 0x02 })
    (fun t => (t.pc, ccByte t.cc)) = some (0x0304, 0x02) := by
  decide

/-- R238: not taken, by hand. -/
theorem test_lble_2 : after (start [(0x0400, [0x10, 0x2F, 0xFF, 0x00])] { zero with cc := ccOfByte 0x0A })
    (fun t => (t.pc, ccByte t.cc)) = some (0x0404, 0x0A) := by
  decide

/-- R242: taken, by hand. -/
theorem test_lbls_1 : after (start [(0x0400, [0x10, 0x23, 0xFF, 0x00])] { zero with cc := ccOfByte 0x01 })
    (fun t => (t.pc, ccByte t.cc)) = some (0x0304, 0x01) := by
  decide

/-- R242: not taken, by hand. -/
theorem test_lbls_2 : after (start [(0x0400, [0x10, 0x23, 0xFF, 0x00])] { zero with cc := ccOfByte 0x0A })
    (fun t => (t.pc, ccByte t.cc)) = some (0x0404, 0x0A) := by
  decide

/-- R244: taken, by hand. -/
theorem test_lblt_1 : after (start [(0x0400, [0x10, 0x2D, 0xFF, 0x00])] { zero with cc := ccOfByte 0x02 })
    (fun t => (t.pc, ccByte t.cc)) = some (0x0304, 0x02) := by
  decide

/-- R244: not taken, by hand. -/
theorem test_lblt_2 : after (start [(0x0400, [0x10, 0x2D, 0xFF, 0x00])] { zero with cc := ccOfByte 0x0A })
    (fun t => (t.pc, ccByte t.cc)) = some (0x0404, 0x0A) := by
  decide

/-- R246: taken, by hand. -/
theorem test_lbmi_1 : after (start [(0x0400, [0x10, 0x2B, 0xFF, 0x00])] { zero with cc := ccOfByte 0x08 })
    (fun t => (t.pc, ccByte t.cc)) = some (0x0304, 0x08) := by
  decide

/-- R246: not taken, by hand. -/
theorem test_lbmi_2 : after (start [(0x0400, [0x10, 0x2B, 0xFF, 0x00])] { zero with cc := ccOfByte 0x07 })
    (fun t => (t.pc, ccByte t.cc)) = some (0x0404, 0x07) := by
  decide

/-- R248: taken, by hand. -/
theorem test_lbne_1 : after (start [(0x0400, [0x10, 0x26, 0xFF, 0x00])] { zero with cc := ccOfByte 0x0B })
    (fun t => (t.pc, ccByte t.cc)) = some (0x0304, 0x0B) := by
  decide

/-- R248: not taken, by hand. -/
theorem test_lbne_2 : after (start [(0x0400, [0x10, 0x26, 0xFF, 0x00])] { zero with cc := ccOfByte 0x04 })
    (fun t => (t.pc, ccByte t.cc)) = some (0x0404, 0x04) := by
  decide

/-- R250: taken, by hand. -/
theorem test_lbpl_1 : after (start [(0x0400, [0x10, 0x2A, 0xFF, 0x00])] { zero with cc := ccOfByte 0x07 })
    (fun t => (t.pc, ccByte t.cc)) = some (0x0304, 0x07) := by
  decide

/-- R250: not taken, by hand. -/
theorem test_lbpl_2 : after (start [(0x0400, [0x10, 0x2A, 0xFF, 0x00])] { zero with cc := ccOfByte 0x08 })
    (fun t => (t.pc, ccByte t.cc)) = some (0x0404, 0x08) := by
  decide

/-- R258: taken, by hand. -/
theorem test_lbvc_1 : after (start [(0x0400, [0x10, 0x28, 0xFF, 0x00])] { zero with cc := ccOfByte 0x0D })
    (fun t => (t.pc, ccByte t.cc)) = some (0x0304, 0x0D) := by
  decide

/-- R258: not taken, by hand. -/
theorem test_lbvc_2 : after (start [(0x0400, [0x10, 0x28, 0xFF, 0x00])] { zero with cc := ccOfByte 0x02 })
    (fun t => (t.pc, ccByte t.cc)) = some (0x0404, 0x02) := by
  decide

/-- R260: taken, by hand. -/
theorem test_lbvs_1 : after (start [(0x0400, [0x10, 0x29, 0xFF, 0x00])] { zero with cc := ccOfByte 0x02 })
    (fun t => (t.pc, ccByte t.cc)) = some (0x0304, 0x02) := by
  decide

/-- R260: not taken, by hand. -/
theorem test_lbvs_2 : after (start [(0x0400, [0x10, 0x29, 0xFF, 0x00])] { zero with cc := ccOfByte 0x0D })
    (fun t => (t.pc, ccByte t.cc)) = some (0x0404, 0x0D) := by
  decide

/-- R254: never, by hand. -/
theorem test_lbrn_1 : after (start [(0x0400, [0x10, 0x21, 0xFF, 0x00])] { zero with cc := ccOfByte 0x0F })
    (fun t => (t.pc, ccByte t.cc)) = some (0x0404, 0x0F) := by
  decide

/-- T90, R69: LDA -1,X. -/
theorem test_address_T90 : after (start [(0x0400, [0xA6, 0x1F]), (0x1FFF, [0x42])] { zero with x := 0x2000 })
    (fun t => (t.a, t.pc, ccByte t.cc)) = some (0x42, 0x0402, 0x00) := by
  decide

/-- T91, R69: LDA -16,Y. -/
theorem test_address_T91 : after (start [(0x0400, [0xA6, 0x30]), (0x2000, [0x43])] { zero with y := 0x2010 })
    (fun t => (t.a, t.pc, ccByte t.cc)) = some (0x43, 0x0402, 0x00) := by
  decide

/-- T92, R71: LDA -128,U. -/
theorem test_address_T92 : after (start [(0x0400, [0xA6, 0xC8, 0x80]), (0x2000, [0x44])] { zero with u := 0x2080 })
    (fun t => (t.a, t.pc, ccByte t.cc)) = some (0x44, 0x0403, 0x00) := by
  decide

/-- T93, R72: LDA $8000,S. -/
theorem test_address_T93 : after (start [(0x0400, [0xA6, 0xE9, 0x80, 0x00]), (0x1000, [0x45])] { zero with s := 0x9000 })
    (fun t => (t.a, t.pc, ccByte t.cc)) = some (0x45, 0x0404, 0x00) := by
  decide

/-- T94, R73: LDA A,X. -/
theorem test_address_T94 : after (start [(0x0400, [0xA6, 0x86]), (0x2000, [0x46])] { zero with a := 0x80, x := 0x2080 })
    (fun t => (t.a, t.pc, ccByte t.cc)) = some (0x46, 0x0402, 0x00) := by
  decide

/-- T95, R73: LDA B,Y. -/
theorem test_address_T95 : after (start [(0x0400, [0xA6, 0xA5]), (0x2000, [0x47])] { zero with b := 0xFF, y := 0x2001 })
    (fun t => (t.a, t.pc, ccByte t.cc)) = some (0x47, 0x0402, 0x00) := by
  decide

/-- T96, R74: LDA D,X. -/
theorem test_address_T96 : after (start [(0x0400, [0xA6, 0x8B]), (0x2000, [0x48])]
      { zero with a := 0xFF, b := 0xFF, x := 0x2001 })
    (fun t => (t.a, t.pc, ccByte t.cc)) = some (0x48, 0x0402, 0x00) := by
  decide

/-- T97, R75: LDA ,X+. -/
theorem test_address_T97 : after (start [(0x0400, [0xA6, 0x80]), (0xFFFF, [0x49])] { zero with x := 0xFFFF })
    (fun t => (t.a, t.x, t.pc, ccByte t.cc)) = some (0x49, 0x0000, 0x0402, 0x00) := by
  decide

/-- T98, R75: LDD ,Y++. -/
theorem test_address_T98 : after (start [(0x0400, [0xEC, 0xA1]), (0x2000, [0x4A, 0x4B])] { zero with y := 0x2000 })
    (fun t => (t.a, t.b, t.y, t.pc, ccByte t.cc)) = some (0x4A, 0x4B, 0x2002, 0x0402, 0x00) := by
  decide

/-- T99, R76: LDA ,-U. -/
theorem test_address_T99 : after (start [(0x0400, [0xA6, 0xC2]), (0xFFFF, [0x4C])] { zero with u := 0x0000 })
    (fun t => (t.a, t.u, t.pc, ccByte t.cc)) = some (0x4C, 0xFFFF, 0x0402, 0x00) := by
  decide

/-- T100, R76: LDD ,--S. -/
theorem test_address_T100 : after (start [(0x0400, [0xEC, 0xE3]), (0x2000, [0x4D, 0x4E])] { zero with s := 0x2002 })
    (fun t => (t.a, t.b, t.s, t.pc, ccByte t.cc)) = some (0x4D, 0x4E, 0x2000, 0x0402, 0x00) := by
  decide

/-- T101, R77: LDA [,X]. -/
theorem test_address_T101 : after (start [(0x0400, [0xA6, 0x94]), (0x2000, [0x30, 0x00]), (0x3000, [0x4F])]
      { zero with x := 0x2000 })
    (fun t => (t.a, t.pc, ccByte t.cc)) = some (0x4F, 0x0402, 0x00) := by
  decide

/-- T102, R77: LDA [,X++]. -/
theorem test_address_T102 : after (start [(0x0400, [0xA6, 0x91]), (0x2000, [0x30, 0x00]), (0x3000, [0x50])]
      { zero with x := 0x2000 })
    (fun t => (t.a, t.x, t.pc, ccByte t.cc)) = some (0x50, 0x2002, 0x0402, 0x00) := by
  decide

/-- T103, R77: LDA [$10,Y]. -/
theorem test_address_T103 : after (start [(0x0400, [0xA6, 0xB8, 0x10]), (0x2010, [0x30, 0x00]), (0x3000, [0x51])]
      { zero with y := 0x2000 })
    (fun t => (t.a, t.pc, ccByte t.cc)) = some (0x51, 0x0403, 0x00) := by
  decide

/-- T104, R78: LDA -2,PCR. -/
theorem test_address_T104 : after (start [(0x0400, [0xA6, 0x8C, 0xFE])] zero)
    (fun t => (t.a, t.pc, ccByte t.cc)) = some (0x8C, 0x0403, 0x08) := by
  decide

/-- T105, R78: LDA $1000,PCR. -/
theorem test_address_T105 : after (start [(0x0400, [0xA6, 0x8D, 0x0B, 0xFC]), (0x1000, [0x52])] zero)
    (fun t => (t.a, t.pc, ccByte t.cc)) = some (0x52, 0x0404, 0x00) := by
  decide

/-- T106, R78: LDA [$10,PCR]. -/
theorem test_address_T106 : after (start [(0x0400, [0xA6, 0x9C, 0x10]), (0x0413, [0x30, 0x00]), (0x3000, [0x53])] zero)
    (fun t => (t.a, t.pc, ccByte t.cc)) = some (0x53, 0x0403, 0x00) := by
  decide

/-- T107, R79: LDA [$2000]. -/
theorem test_address_T107 : after (start [(0x0400, [0xA6, 0x9F, 0x20, 0x00]), (0x2000, [0x30, 0x00]), (0x3000, [0x54])] zero)
    (fun t => (t.a, t.pc, ccByte t.cc)) = some (0x54, 0x0404, 0x00) := by
  decide

/-! ### Boundaries: T168 to T178, and RESET -/

/-- A boundary's input with the given lines active. -/
def lines (nmi firq irq : Bool) : BoundaryInput :=
  { reset := false, resetDuring := none, nmi, firq, irq, events := [] }

/-- `NOP` at $0400, not yet executed, and an input at the boundary before it. -/
def beforeNop (inp : BoundaryInput) (s : State) : State := { start [vectors, (0x0400, [0x12])] s with inputs := [inp] }

/-- T168, R279: IRQ. -/
theorem test_irq_taken : after (beforeNop (lines false false true) framed)
    (fun t => (t.s, t.pc, ccByte t.cc, cellByte 0x07FF t, cellByte 0x07F4 t)) = some (0x07F4, 0xE080, 0x95, 0x00, 0x85) := by
  decide

/-- T169, R278: FIRQ. -/
theorem test_firq_taken : after (beforeNop (lines false true false) { framed with cc := ccOfByte 0x85 })
    (fun t => (t.s, t.pc, ccByte t.cc, cellByte 0x07FE t, cellByte 0x07FD t)) = some (0x07FD, 0xE060, 0x55, 0x04, 0x05) := by
  decide

/-- T170, R277: NMI armed. -/
theorem test_nmi_taken : after (beforeNop (lines true false false) { framed with nmiArmed := true })
    (fun t => (t.s, t.pc, ccByte t.cc, t.nmiPending, t.nmiArmed)) = some (0x07F4, 0xE0C0, 0xD5, false, true) := by
  decide

/-- T171, R273: NMI not armed is dropped; the NOP runs. -/
theorem test_nmi_dropped : after (beforeNop (lines true false false) framed)
    (fun t => (t.s, t.pc, ccByte t.cc, t.nmiPending)) = some (0x0800, 0x0401, 0x05, false) := by
  decide

/-- T172, R279: IRQ masked; the NOP runs. -/
theorem test_irq_masked : after (beforeNop (lines false false true) { framed with cc := ccOfByte 0x15 })
    (fun t => (t.s, t.pc, ccByte t.cc)) = some (0x0800, 0x0401, 0x15) := by
  decide

/-- T174, R285: IRQ out of CWAI stacks nothing again. -/
theorem test_cwai_irq : after { beforeNop (lines false false true) { framed with s := 0x07F4, pc := 0x0402, cc := ccOfByte 0x85 }
      with wait := .cwai }
    (fun t => (t.s, t.pc, ccByte t.cc, t.wait == .none)) = some (0x07F4, 0xE080, 0x95, true) := by
  decide

/-- T175, R285: FIRQ out of CWAI keeps E. -/
theorem test_cwai_firq : after { beforeNop (lines false true false) { framed with s := 0x07F4, pc := 0x0402, cc := ccOfByte 0x95 }
      with wait := .cwai }
    (fun t => (t.s, t.pc, ccByte t.cc)) = some (0x07F4, 0xE060, 0xD5) := by
  decide

/-- T177, R286: a masked IRQ ends SYNC without an entry. -/
theorem test_sync_masked : after { beforeNop (lines false false true) { zero with s := 0x0800, pc := 0x0401, cc := ccOfByte 0x10 }
      with wait := .sync }
    (fun t => (t.s, t.pc, ccByte t.cc, t.wait == .none)) = some (0x0800, 0x0401, 0x10, true) := by
  decide

/-- T178, R286: an IRQ that is not masked ends SYNC with its entry. -/
theorem test_sync_irq : after { beforeNop (lines false false true) { zero with s := 0x0800, pc := 0x0401 } with wait := .sync }
    (fun t => (t.s, t.pc, ccByte t.cc, cellByte 0x07FF t, cellByte 0x07F4 t)) = some (0x07F4, 0xE080, 0x90, 0x01, 0x80) := by
  decide

/-- R331: RESET overrides an armed NMI; PC from its vector, nothing stacked. -/
theorem test_reset_input : after (beforeNop { lines true true true with reset := true } { framed with nmiArmed := true })
    (fun t => (t.pc, t.dp, t.cc.i, t.cc.f, t.nmiArmed, t.mem.length)) =
      some (0xE000, 0, true, true, false, 15) := by
  decide

/-- R331, R44: RESET in the middle of STD to $3310, after the first of its two stores: the high byte is stored, the low byte is not. -/
theorem test_reset_in_std :
    after { start [vectors, (0x0400, [0xDD, 0x10]), (0x3310, [0x77, 0x77])] framed with
        inputs := [{ lines false false false with resetDuring := some 1 }] }
      (fun t => (t.pc, t.dp, cellByte 0x3310 t, cellByte 0x3311 t)) = some (0xE000, 0, 0x11, 0x77) := by
  decide

/-! ### Devices, by hand from the rules named -/

/-- R293: with bit 2 of the control register 0, a store at $F002 goes to the data direction register; the listing E8 then sets
the bit and stores data. -/
theorem test_pia_ddr_then_data :
    let s := writeByte 0xF002 0x0F (writeByte 0xF003 0x04 (writeByte 0xF002 0xF0 zero))
    (s.pia.portB.ddr, s.pia.portB.latch, (readByte 0xF003 s).1) = (0xF0, 0x0F, 0x04) := by
  decide

/-- R294: a falling edge of CB1 with bit 1 = 0 sets bit 7, which a read of the data register clears. -/
theorem test_pia_edge :
    let s := applyEvents [.controlLine1 .b true, .controlLine1 .b false] (writeByte 0xF003 0x05 zero)
    ((readByte 0xF003 s).1, (readByte 0xF003 (readByte 0xF002 s).2).1) = (0x85, 0x05) := by
  decide

/-- R49: LDD $F002 reads $A5 from the pins of port B and then CRB; a rising edge of CB1 between its two byte accesses shows in bit 7,
and one before both is cleared by the first. -/
theorem test_device_between_accesses :
    let s := start [(0x0400, [0xFC, 0xF0, 0x02])] (applyEvent (.portPins .b 0xA5) (writeByte 0xF003 0x06 zero))
    let edge : List DeviceEvent := [.controlLine1 .b true]
    after { s with between := [[], edge] } (fun t => (t.a, t.b, t.between.length)) = some (0xA5, 0x86, 0) ∧
    after { s with between := [edge, []] } (fun t => (t.a, t.b, t.between.length)) = some (0xA5, 0x06, 0) := by
  decide

/-- R297, R298: CR#2 bit 0 selects CR#1 at $F018; a 16-bit store at $F01E loads the latches of timer 3. -/
theorem test_ptm_registers :
    let s := writeWord 0xF01E 0x80FF (writeByte 0xF018 0x42 (writeByte 0xF019 0x01 zero))
    (s.ptm.timer1.ctrl, s.ptm.timer2.ctrl, s.ptm.timer3.latch, s.ptm.msbBuffer) = (0x42, 0x01, 0x80FF, 0x80) := by
  decide

/-- R299, R300: the end of a count sets the flag of timer 1, and bit 7 where bit 6 of CR#1 enables it; reading the status and
then the counter clears it. -/
theorem test_ptm_flag :
    let s := applyEvents [.timerClock .t1 .external 0xFFFF true] (writeByte 0xF018 0x40 (writeByte 0xF019 0x01 zero))
    let read := readByte 0xF019 s
    (read.1, (readByte 0xF019 (readWord 0xF01A read.2).2).1) = (0x81, 0x00) := by
  decide

/-- R299: with bit 0 of CR#3 set, timer 3 counts at the eighth clock pulse and not at the seventh, and at none while the gate G3 is
inactive. -/
theorem test_ptm_divider :
    let s := writeByte 0xF018 0x00 (writeByte 0xF019 0x01 (writeByte 0xF018 0x03 zero))
    let pulses := fun n => applyEvents (List.replicate n (.timerClock .t3 .system 0x1234 false))
    ((pulses 7 s).ptm.timer3.counter, (pulses 8 s).ptm.timer3.counter,
      (pulses 8 (applyEvent (.gate3 false) s)).ptm.timer3.counter) = (0xFFFF, 0x1234, 0xFFFF) := by
  decide

/-- R299: while bit 7 of CR#2 is 1, the pin O of timer 2 shows a square wave, which changes at the end of a count cycle. -/
theorem test_ptm_output :
    let s := writeByte 0xF019 0x82 (writeByte 0xF018 0x00 (writeByte 0xF019 0x01 zero))
    let ended := applyEvent (.timerClock .t2 .system 0xFFFF true) s
    (timerOutput s.ptm.timer2, timerOutput ended.ptm.timer2, timerOutput (writeByte 0xF019 0x02 ended).ptm.timer2) =
      (some false, some true, none) := by
  decide

/-- R304: a store at $F021 or $F029 is the byte of digit S1. -/
theorem test_display : ((writeByte 0xF029 0x5B zero).display.toList, (writeByte 0xF021 0x5B zero).display.toList) =
    ([0, 0x5B, 0, 0, 0, 0, 0, 0], [0, 0x5B, 0, 0, 0, 0, 0, 0]) := by
  decide

/-- P5, R291: after SWI the stub at $E0A0, JMP [$0044], gives control to the handler at $0500, with S at the frame. -/
theorem test_dispatch_swi :
    let s := start [(0x0044, [0x05, 0x00]), (0xE0A0, [0x6E, 0x9F, 0x00, 0x44]), vectors]
      { zero with a := 0x41, s := 0x0800, pc := 0x0407 }
    (match watch (atHandler .swi s) 3 (raiseInterrupt .swi s) [] with
      | .stopped t passed => some (t.pc, t.s, cellByte 0x07F5 t, passed.length)
      | _ => none) = some (0x0500, 0x07F4, 0x41, 2) ∧
    (monitorInterrupt .swi .swi1 s).pc = 0x0500 := by
  decide +kernel

/-- R291: SWI2 of two bytes before PC is served from ROM or from RAM by where it lies, in the reset state's map. -/
theorem test_served_swi2 :
    servedBy .swi2 .swi2FromRom { State.reset with pc := 0xE002 } = true ∧
    servedBy .swi2 .swi2FromRam { State.reset with pc := 0xE001 } = true ∧
    servedBy .swi2 .swi2FromRam { State.reset with pc := 0x0402 } = true := by
  decide

/-- R303, R305: the key D of the data keys on line X8 of $F012 is pressed, and no key at reset. -/
theorem test_pressed : Pressed (.data 0xD) (applyEvent (.keyRow 2 0x8) zero) ∧ ¬ Pressed (.data 0xD) zero := by
  refine ⟨⟨2, 3, rfl, rfl⟩, ?_⟩
  rintro ⟨row, line, -, h⟩
  revert row line
  decide

/-! ### The second mnemonics, which no bytes decode to (R92) -/

/-- The meaning of a second mnemonic of a shift, in a state with A = $C1, B = $40 and $81 at $0010. -/
theorem test_lsl_meanings :
    let s := { start [(0x0010, [0x81])] zero with a := 0xC1, b := 0x40 }
    let result := fun (i : Instr) (f : State → Byte) => match exec i s with | .next t => some (f t, nzvc t) | _ => none
    result .lsla State.a = some (0x82, 0x9) ∧ result .lslb State.b = some (0x80, 0xA) ∧
    result (.lsl (.direct 0x10)) (cellByte 0x0010) = some (0x02, 0x3) := by
  decide

/-- The meaning of a second mnemonic of a branch, from PC = $0402, with C = 0 and with C = 1. -/
theorem test_carry_branch_meanings :
    let target := fun (i : Instr) (c : Bool) =>
      match exec i { zero with pc := 0x0402, cc := { zero.cc with c } } with | .next t => some t.pc | _ => none
    (target (.bhs 0xFE) false = some 0x0400 ∧ target (.bhs 0xFE) true = some 0x0402) ∧
    (target (.blo 0xFE) false = some 0x0402 ∧ target (.blo 0xFE) true = some 0x0400) ∧
    (target (.lbhs 0x0100) false = some 0x0502 ∧ target (.lbhs 0x0100) true = some 0x0402) ∧
    target (.lblo 0x0100) false = some 0x0402 ∧ target (.lblo 0x0100) true = some 0x0502 := by
  decide

/-! ## Part 4: the hypotheses of the statements can be met -/

/-- The bytes at $0400 with a stack above them: the running state of the witnesses. -/
def running (code : List Byte) : State := { start [vectors, (0x0400, code)] zero with s := 0x0800, u := 0x0700 }

theorem witness_running (code : List Byte) : Running (running code) := ⟨rfl, rfl, rfl⟩

/-- `BusReadsAndWrites`: a device's address, with and without something the device does of its own. -/
theorem witness_between : deviceAt 0xF000 = some (.piaData .a) ∧ zero.between = [] ∧
    ({ zero with between := [[.controlLine1 .a true]] } : State).between = [.controlLine1 .a true] :: [] := ⟨rfl, rfl, rfl⟩

/-- Code of one byte lies where PC is. -/
theorem witness_codeAt_page1 : ∀ b ∈ ([0x01, 0x14, 0x87, 0xCF] : List Byte), CodeAt (running [b]) [b] 0x0400 := by
  intro b _
  exact ⟨.inl rfl, rfl, trivial⟩

/-- `OpcodeMap`: unused opcodes of the three pages, the first and the last of page 1. -/
theorem witness_OpcodeMap :
    (Running (running [0x01]) ∧ CodeAt (running [0x01]) [0x01] (running [0x01]).pc) ∧
    (Running (running [0xCF]) ∧ CodeAt (running [0xCF]) [0xCF] (running [0xCF]).pc) ∧
    ((0x20 : Byte).toNat ∉ page2Rows.map Prod.fst ∧ Running (running [0x10, 0x20]) ∧
      CodeAt (running [0x10, 0x20]) [0x10, 0x20] (running [0x10, 0x20]).pc) ∧
    (0x3E : Byte).toNat ∉ page3Rows.map Prod.fst ∧ Running (running [0x11, 0x3E]) ∧
      CodeAt (running [0x11, 0x3E]) [0x11, 0x3E] (running [0x11, 0x3E]).pc :=
  ⟨⟨witness_running _, .inl rfl, rfl, trivial⟩, ⟨witness_running _, .inl rfl, rfl, trivial⟩,
    ⟨by decide, witness_running _, .inl rfl, rfl, .inl rfl, rfl, trivial⟩,
    by decide, witness_running _, .inl rfl, rfl, .inl rfl, rfl, trivial⟩

/-- `DecodeInvertsEncode`, `StepRunsCodeInMemory`: a well-formed instruction whose bytes lie at PC. -/
theorem witness_StepRunsCodeInMemory :
    (Instr.exg .a .dp).wellFormed = true ∧ Running (running [0x1E, 0x8B]) ∧
    CodeAt (running [0x1E, 0x8B]) (encode (.exg .a .dp)) (running [0x1E, 0x8B]).pc :=
  ⟨rfl, witness_running _, .inl rfl, rfl, .inl rfl, rfl, trivial⟩

/-- `SecondMnemonics`: two well-formed terms with the same bytes, and two with different ones. -/
theorem witness_SecondMnemonics :
    (Instr.lsla.wellFormed = true ∧ Instr.asla.wellFormed = true ∧ encode .lsla = encode .asla) ∧
      encode .lsla ≠ encode .lsra := by
  decide

/-- `UndefinedPostbytesRefused`: an opcode whose mode is indexed on each page, and a LEA. -/
theorem witness_UndefinedPostbytesRefused :
    (∃ f, findForm (0x60 : Byte).toNat page1Rows = some (.indexed f)) ∧ (∃ f, findForm (0x30 : Byte).toNat page1Rows =
      some (.lea f)) ∧
    (∃ f, findForm (0xAE : Byte).toNat page2Rows = some (.indexed f)) ∧ (∃ f, findForm (0xA3 : Byte).toNat page3Rows =
      some (.indexed f)) :=
  ⟨⟨_, rfl⟩, ⟨_, rfl⟩, ⟨_, rfl⟩, ⟨_, rfl⟩⟩

/-- `RegisterPairPostbytes`: pairs of one width, a post-byte of two widths and one with a code that names no register. -/
theorem witness_RegisterPairPostbytes :
    regWide .d = regWide .pc ∧ regWide .a = regWide .dp ∧
    (∀ r1 r2 : Reg, (0x18 : Byte) = regCode r1 ++ regCode r2 → regWide r1 ≠ regWide r2) ∧
    ∀ r1 r2 : Reg, (0x60 : Byte) = regCode r1 ++ regCode r2 → regWide r1 ≠ regWide r2 := by
  refine ⟨rfl, rfl, fun r1 r2 => ?_, fun r1 r2 => ?_⟩ <;> cases r1 <;> cases r2 <;> decide

/-- `StepRunsFetchedInstruction`: the fetch of a NOP. -/
theorem witness_StepRunsFetchedInstruction :
    Running (running [0x12]) ∧ fetch (running [0x12]) = (.ok .nop [], { running [0x12] with pc := 0x0401 }) ∧
    decode [0x12] = .ok .nop [] ∧ (0x0401 : Word) = (running [0x12]).pc + BitVec.ofNat 16 [(0x12 : Byte)].length :=
  ⟨witness_running _, rfl, rfl, rfl⟩

/-- `OperandFrame`: no byte read at a device's address or outside RAM and ROM, of a direct and of an indirect operand, and an operand
at a device's address. -/
theorem witness_OperandFrame :
    (∀ a ∈ pointerReads (.direct 0x10) zero ++ [(effectiveAddress (.direct 0x10) zero).1], Plain a zero ∧ deviceAt a = none) ∧
    (∀ a ∈ pointerReads (.indexed (.inc2 .x true)) zero ++ [(effectiveAddress (.indexed (.inc2 .x true))
        (start [(0, [0x12, 0x34])] zero)).1], Plain a zero ∧ deviceAt a = none) ∧
    deviceAt (effectiveAddress (.extended 0xF018) zero).1 = some .ptmControl13 := by
  refine ⟨?_, ?_, rfl⟩ <;> intro a h <;>
    simp only [pointerReads, isIndirect, List.nil_append, List.cons_append, List.mem_cons, List.not_mem_nil, or_false,
      if_true] at h
  · subst h; exact ⟨.inl rfl, rfl⟩
  · obtain rfl | rfl | rfl := h <;> exact ⟨.inl rfl, rfl⟩

/-- `StepRefusals`: a step that is refused, and one that is not. -/
theorem witness_StepRefusals :
    step (running [0x01]) = .refused .illegalOpcode ∧ step (running [0x12]) = .next { running [0x12] with pc := 0x0401 } :=
  ⟨rfl, rfl⟩

/-- `IndirectAddresses`: an indirect form and its direct one, with the pointer in RAM. -/
theorem witness_IndirectAddresses :
    (∃ r, Indexed.inc2 .x false = .inc2 r false ∧ Indexed.inc2 .x true = .inc2 r true) ∧
    Plain (indexedAddress (.inc2 .x false) zero).1 zero ∧ Plain ((indexedAddress (.inc2 .x false) zero).1 + 1) zero :=
  ⟨⟨.x, rfl, rfl⟩, .inl rfl, .inl rfl⟩

/-- `BusReadsAndWrites`: each kind of address at the bounds of the reset state's map. -/
theorem witness_BusReadsAndWrites :
    (Ram 0x0000 State.reset ∧ Ram 0xDFFE State.reset ∧ Ram 0xDFFF State.reset) ∧
    (busTarget 0xE000 State.reset = .memory .rom ∧ busTarget 0xFFFF State.reset = .memory .rom ∧ Plain 0xE000 State.reset) ∧
    busTarget 0xF004 State.reset = .memory .unpopulated ∧ busTarget 0xF030 State.reset = .memory .unpopulated ∧
    Ram 0xFFFF zero ∧ Ram (0xFFFF + 1) zero :=
  ⟨⟨rfl, rfl, rfl⟩, ⟨rfl, rfl, .inr rfl⟩, rfl, rfl, rfl, rfl⟩

/-- `DeviceAddresses`: the addresses of no device, at the bounds of their ranges. -/
theorem witness_DeviceAddresses :
    (0xEFFF : Word) < 0xF000 ∧ ((0xF003 : Word) < 0xF004 ∧ (0xF004 : Word) < 0xF010) ∧ ((0xF003 : Word) < 0xF00F ∧
      (0xF00F : Word) < 0xF010) ∧
    (0xF02F : Word) < 0xF030 ∧ deviceAt 0xEFFF = none ∧ deviceAt 0xF00F = none ∧ deviceAt 0xF017 = none ∧
      deviceAt 0xF030 = none := by
  decide

/-- Twelve bytes of RAM lie below both stack pointers, at S = $0800 and where the stack begins at $0000. -/
theorem witness_roomBelow : RoomBelow 12 .s (running []) ∧ RoomBelow 12 .u (running []) ∧ RoomBelow 12 .s
      { zero with s := 0x000C } := by
  refine ⟨?_, ?_, ?_⟩ <;> intro k h1 h2 <;> interval_cases k <;> rfl

/-- `PushAndPull`: two bytes of RAM below both pointers. -/
theorem witness_PushAndPull : RoomBelow 2 .s (running []) ∧ RoomBelow 2 .u (running []) := by
  refine ⟨?_, ?_⟩ <;> intro k h1 h2 <;> interval_cases k <;> rfl

/-- `CallsAndReturn`: the three calls, each with a later state that keeps S and the return address and nothing else. -/
theorem witness_CallsAndReturn (i : Instr) (hi : i ∈ [Instr.jsr (.extended 0x1000), .bsr 0x10, .lbsr 0x0010]) :
    let s := running []
    ((∃ m, i = .jsr m ∧ s = (effectiveAddress m s).2) ∨ (∃ off, i = .bsr off ∧ s = s) ∨ ∃ off, i = .lbsr off ∧ s = s) ∧
    RoomBelow 2 .s s ∧ ∃ t u, exec i s = .next t ∧ u = { t with a := 0x55, mem := t.mem.put 0x0010 0x99 } ∧ u.s = t.s ∧
      Plain u.s u ∧ Plain (u.s + 1) u ∧ cellByte u.s u = cellByte u.s t ∧ cellByte (u.s + 1) u = cellByte (u.s + 1) t := by
  simp only [List.mem_cons, List.not_mem_nil, or_false] at hi
  obtain rfl | rfl | rfl := hi
  · exact ⟨.inl ⟨_, rfl, rfl⟩, witness_PushAndPull.1, _, _, rfl, rfl, rfl, .inl rfl, .inl rfl, rfl, rfl⟩
  · exact ⟨.inr (.inl ⟨_, rfl, rfl⟩), witness_PushAndPull.1, _, _, rfl, rfl, rfl, .inl rfl, .inl rfl, rfl, rfl⟩
  · exact ⟨.inr (.inr ⟨_, rfl, rfl⟩), witness_PushAndPull.1, _, _, rfl, rfl, rfl, .inl rfl, .inl rfl, rfl, rfl⟩

/-- Twelve bytes of RAM lie at and above both stack pointers. -/
theorem witness_plainAbove : PlainAbove 12 .s (running []) ∧ PlainAbove 12 .u (running []) := by
  refine ⟨?_, ?_⟩ <;> intro k h <;> interval_cases k <;> exact .inl rfl

/-- `PushRegisterList`, `PullRegisterList`: the whole list and the empty one, with RAM at the pointer. -/
theorem witness_registerLists :
    (∀ k : Fin 8, (0xFF : Byte).getLsbD k = true) ∧ (∀ k : Fin 8, (0x00 : Byte).getLsbD k = false) ∧
    RoomBelow 12 .s (running []) ∧ PlainAbove 12 .s (running []) ∧ RoomBelow 12 .u (running []) ∧ PlainAbove 12 .u (running []) :=
  ⟨by decide, by decide, witness_roomBelow.1, witness_plainAbove.1, witness_roomBelow.2.1, witness_plainAbove.2⟩

/-- `PullUndoesPush`: room for the longest list on both stacks. -/
theorem witness_PullUndoesPush : RoomBelow 12 .s (running []) ∧ RoomBelow 12 .u (running []) :=
  ⟨witness_roomBelow.1, witness_roomBelow.2.1⟩

/-- `DecimalAddition`: the least and the greatest operands. -/
theorem witness_DecimalAddition :
    ((0 : Nat) < 100 ∧ zero.a = BitVec.ofNat 8 (16 * (0 / 10) + 0 % 10)) ∧
    (99 : Nat) < 100 ∧ ({ zero with a := 0x99 } : State).a = BitVec.ofNat 8 (16 * (99 / 10) + 99 % 10) := by
  decide

/-- `RegisterTransfers`: registers of one width, and of two. -/
theorem witness_RegisterTransfers : regWide .x = regWide .s ∧ regWide .a = regWide .cc ∧ regWide .d ≠ regWide .b := by
  decide

/-- `VectorTable`: the vectors lie in ROM. -/
theorem witness_VectorTable : Plain 0xFFFE State.reset ∧ Plain (0xFFFE + 1) State.reset := ⟨.inr rfl, .inr rfl⟩

/-- `InterruptEntry`: every kind, from a state that runs and from one that waits in SYNC. -/
theorem witness_InterruptEntry (k : Interrupt) :
    ((running []).wait ≠ .cwai ∧ RoomBelow 12 .s (running []) ∧ Plain (vectorOf k) (running []) ∧
      Plain (vectorOf k + 1) (running [])) ∧ ({ running [] with wait := .sync } : State).wait ≠ .cwai := by
  refine ⟨⟨by decide, witness_roomBelow.1, ?_, ?_⟩, by decide⟩ <;> cases k <;> exact .inl rfl

/-- `BoundaryPriority`: a state for each of the four cases. -/
theorem witness_BoundaryPriority :
    (let s : State := { running [] with nmiPending := true, nmiArmed := true, firqLine := true };
      s.inputs = [] ∧ s.nmiPending = true ∧ s.nmiArmed = true) ∧
    (let s : State := { running [] with firqLine := true, irqLine := true };
      s.inputs = [] ∧ ¬(s.nmiPending = true ∧ s.nmiArmed = true) ∧ s.firqLine = true ∧ s.cc.f = false) ∧
    (let s : State := { running [] with firqLine := true, irqLine := true, cc := ccOfByte 0x40 };
      s.inputs = [] ∧ ¬(s.firqLine = true ∧ s.cc.f = false) ∧ s.irqLine = true ∧ s.cc.i = false) ∧
    let s : State := { running [0x12] with firqLine := true, irqLine := true, cc := ccOfByte 0x50 }
    s.inputs = [] ∧ ¬(s.firqLine = true ∧ s.cc.f = false) ∧ ¬(s.irqLine = true ∧ s.cc.i = false) ∧ s.wait = .none ∧
      fetch s = (.ok .nop [], { s with pc := 0x0401 }) :=
  ⟨by decide, by decide, by decide, rfl, by decide, by decide, rfl, rfl⟩

/-- `BoundaryInputs`, `ResetInput`: an input with and without RESET, and the vector in ROM. -/
theorem witness_BoundaryInputs :
    let reset : BoundaryInput := { lines false false false with reset := true }
    (({ State.reset with inputs := [reset] } : State).inputs = reset :: [] ∧ reset.reset = true ∧
      Plain 0xFFFE { State.reset with inputs := [reset] } ∧ Plain 0xFFFF { State.reset with inputs := [reset] }) ∧
    (lines true false false).reset = false ∧ (lines true false false).resetDuring = none :=
  ⟨⟨rfl, rfl, .inr rfl, .inr rfl⟩, rfl, rfl⟩

/-- `ResetInTheMiddle`: RESET before the first store and after the last one, of an instruction, of an interrupt entry, and of one out
of CWAI, which stores nothing. -/
theorem witness_ResetInTheMiddle (k : Nat) (hk : k = 0 ∨ k = 2) :
    let std : State := { running [0xDD, 0x10] with inputs := [{ lines false false false with resetDuring := some k }] }
    let irq : State := { running [0x12] with inputs := [{ lines false false true with resetDuring := some k }] }
    (∃ inp fetched completed, std.inputs = [inp] ∧ inp.reset = false ∧ inp.resetDuring = some k ∧ Plain 0xFFFE std ∧
      Plain 0xFFFF std ∧ acceptedInterrupt (takeInput inp [] std) = none ∧ (takeInput inp [] std).wait = .none ∧
      fetch (takeInput inp [] std) = (.ok (.std (.direct 0x10)) [], fetched) ∧
      exec (.std (.direct 0x10)) fetched = .next completed ∧ storesTo (.std (.direct 0x10)) fetched = [0x0010, 0x0011]) ∧
    (∃ inp, irq.inputs = [inp] ∧ inp.reset = false ∧ inp.resetDuring = some k ∧
      acceptedInterrupt (takeInput inp [] irq) = some .irq ∧ (takeInput inp [] irq).wait = .none) ∧
    ∃ inp, ({ irq with wait := .cwai } : State).inputs = [inp] ∧
      (takeInput inp [] { irq with wait := .cwai }).wait = .cwai := by
  obtain rfl | rfl := hk <;>
    exact ⟨⟨_, _, _, rfl, rfl, rfl, .inl rfl, .inl rfl, rfl, rfl, rfl, rfl, rfl⟩, ⟨_, rfl, rfl, rfl, rfl, rfl⟩, _, rfl, rfl⟩

/-- `ReturnFromInterrupt`: twelve bytes above S, with E of the stacked CC 1 and 0. -/
theorem witness_ReturnFromInterrupt : PlainAbove 12 .s (running []) ∧
    (ccOfByte (cellByte 0x0800 (start [(0x0800, [0x80])] (running [])))).e = true ∧
    (ccOfByte (cellByte 0x0800 (start [(0x0800, [0x7F])] (running [])))).e = false :=
  ⟨witness_plainAbove.1, rfl, rfl⟩

/-- `EntryThenReturn`: every kind. -/
theorem witness_EntryThenReturn (k : Interrupt) : (running []).wait = .none ∧ RoomBelow 12 .s (running []) ∧
    Plain (vectorOf k) (running []) ∧ Plain (vectorOf k + 1) (running []) :=
  ⟨rfl, (witness_InterruptEntry k).1.2.1, (witness_InterruptEntry k).1.2.2.1, (witness_InterruptEntry k).1.2.2.2⟩

/-- `InterruptInstructions`: no wait, and room for the frame. -/
theorem witness_InterruptInstructions : (running []).wait = .none ∧ RoomBelow 12 .s (running []) := ⟨rfl, witness_roomBelow.1⟩

/-- `Waiting`: each case. -/
theorem witness_Waiting :
    (let s : State := { running [] with wait := .cwai, irqLine := true };
      s.inputs = [] ∧ acceptedInterrupt s = some .irq ∧ Plain (vectorOf .irq) s ∧ Plain (vectorOf .irq + 1) s) ∧
    (let s : State := { running [] with wait := .cwai, irqLine := true, cc := ccOfByte 0x10 };
      s.inputs = [] ∧ acceptedInterrupt s = none) ∧
    (let s : State := { running [] with wait := .sync, irqLine := true, cc := ccOfByte 0x10 };
      s.inputs = [] ∧ acceptedInterrupt s = none ∧ s.irqLine = true) ∧
    (let s : State := { running [] with wait := .sync };
      s.inputs = [] ∧ acceptedInterrupt s = none ∧ s.irqLine = false ∧ s.firqLine = false) ∧
    let s : State := { running [] with wait := .sync, firqLine := true }
    s.inputs = [] ∧ acceptedInterrupt s = some .firq :=
  ⟨⟨rfl, rfl, .inl rfl, .inl rfl⟩, ⟨rfl, rfl⟩, ⟨rfl, rfl, rfl⟩, ⟨rfl, rfl, rfl, rfl⟩, rfl, rfl⟩

/-- `StepKeepsInvariant`: a sound state, with a stored byte, that steps. -/
theorem witness_StepKeepsInvariant : Inv (running [0x12]) ∧ ∃ t, step (running [0x12]) = .next t :=
  ⟨⟨by decide, by decide, by decide⟩, _, rfl⟩

/-- `StatusFrame`, `MemoryFrame`, `RegisterFrame`: instructions that complete and meet each premise. -/
theorem witness_frames :
    ((∃ t, exec .nop zero = .next t) ∧ mayWriteDp .nop = false ∧ mayWriteMasks .nop = false ∧ keepsFlags .nop = true ∧
      keepsH .nop = true ∧ keepsN .nop = true ∧ keepsZ .nop = true ∧ keepsV .nop = true ∧ keepsC .nop = true) ∧
    (∃ t, exec .swi2 (running []) = .next t) ∧ (∃ t, exec .swi3 (running []) = .next t) ∧
    ((∃ t, exec (.sta (.direct 0x10)) zero = .next t) ∧ (0x0011 : Word) ∉ storesTo (.sta (.direct 0x10)) zero ∧
      (0x0010 : Word) ∈ storesTo (.sta (.direct 0x10)) zero) ∧
    (∃ t, exec .inca zero = .next t) ∧ Reg.b ∉ writesRegs .inca ∧ Reg.s ∉ writesRegs .inca :=
  ⟨⟨⟨_, rfl⟩, by decide, by decide, by decide, by decide, by decide, by decide, by decide, by decide⟩, ⟨_, rfl⟩, ⟨_, rfl⟩,
    ⟨⟨_, rfl⟩, by decide, by decide⟩, ⟨_, rfl⟩, by decide, by decide⟩

/-- `ParallelPort`: bit 2 of the control register 0 and 1, on both ports, and lines of both directions at the least and the
greatest bit. -/
theorem witness_ParallelPort (p : PortName) :
    let selected := writeByte (match p with | .a => 0xF001 | .b => 0xF003) 0x04
      (writeByte (match p with | .a => 0xF000 | .b => 0xF002) 0x80 zero)
    (portOf p zero).ctrl.getLsbD 2 = false ∧ (portOf p selected).ctrl.getLsbD 2 = true ∧
    (portOf p selected).ddr.getLsbD 0 = false ∧ (portOf p selected).ddr.getLsbD 7 = true := by
  cases p <;> decide

/-- `ParallelPortInterrupts`: an active edge, and CB2 as an output that follows bit 3. -/
theorem witness_ParallelPortInterrupts :
    (let port := portOf .b (writeByte 0xF003 0x12 zero);
      port.c1 ≠ true ∧ true = port.ctrl.getLsbD 1 ∧ port.ctrl.getLsbD 5 = false ∧ true = port.ctrl.getLsbD 4) ∧
    let port := portOf .b (writeByte 0xF003 0x30 zero)
    port.ctrl.getLsbD 5 = true ∧ port.ctrl.getLsbD 4 = true := by
  decide

/-- `TimerRegisters`, `TimerFlags`: bit 0 of CR#2 in both values, timers held and counting, the status not read, and a write that
holds the timers. -/
theorem witness_timers :
    (let s := writeByte 0xF019 0x01 zero;
      s.ptm.timer2.ctrl.getLsbD 0 = true ∧ s.ptm.timer1.ctrl.getLsbD 0 = true ∧ (0x01 : Byte).getLsbD 0 = true ∧
      (timerOf .t1 s.ptm).statusRead = false) ∧
    (zero.ptm.timer2.ctrl.getLsbD 0 = false ∧ TimerNo.t2 ≠ TimerNo.t1) ∧
    (writeByte 0xF018 0x00 (writeByte 0xF019 0x01 zero)).ptm.timer1.ctrl.getLsbD 0 = false := by
  decide

/-- `TimerFlags`: CR#3 = $83, so that timer 3 counts in the continuous mode from the system clock, divided by 8 and with its output
enabled; the divider at 0 and at 7, the gate active and inactive, and the wrong clock. -/
theorem witness_TimerFlags :
    let s := writeByte 0xF018 0x00 (writeByte 0xF019 0x01 (writeByte 0xF018 0x83 zero))
    let seventh := applyEvents (List.replicate 7 (.timerClock .t3 .system 0x1234 false)) s
    (s.ptm.timer1.ctrl.getLsbD 0 = false ∧ s.ptm.gate3 = true ∧ s.ptm.timer3.ctrl.getLsbD 0 = true ∧ s.ptm.divider3 ≠ 7 ∧
      s.ptm.timer3.ctrl.getLsbD 1 = true ∧ ClockSource.external ≠ .system) ∧
    (seventh.ptm.divider3 = 7 ∧ (timerOf .t3 seventh.ptm).ctrl.extractLsb' 3 3 = 0 ∧
      (timerOf .t3 seventh.ptm).ctrl.getLsbD 7 = true) ∧
    (applyEvent (.gate3 false) s).ptm.gate3 = false := by
  decide

end Sys2Proof.Tests
end

section
/-! PROOFS of 00_scope: the step runs exactly the instruction whose bytes lie in RAM or ROM at PC. Three parts: decoding what was
encoded gives the instruction back; the decoder asks for more at each proper beginning of its bytes; and so the fetch reads those
bytes and no others. -/

namespace Sys2Proof

/-! ## Decoding what was encoded -/

/-- The tables of page 1, one for each row of R84's map. -/
def page1Tables : List (List (Nat × Form)) :=
  [page1Row0, page1Row1, page1Row2, page1Row3, page1Row4, page1Row5, page1Row6, page1Row7, page1Row8, page1Row9, page1RowA,
   page1RowB, page1RowC, page1RowD, page1RowE, page1RowF]

/-- The form of an opcode, looked for table by table. -/
def formIn (tables : List (List (Nat × Form))) (op : Byte) : Option Form := tables.findSome? (findForm op.toNat)

theorem findForm_append (op : Nat) (left right : List (Nat × Form)) :
    findForm op (left ++ right) = (findForm op left).or (findForm op right) := by
  induction left with
  | nil => rfl
  | cons row rows ih => simp only [List.cons_append, findForm, ih]; split <;> rfl

theorem findForm_flatten (tables : List (List (Nat × Form))) (op : Byte) :
    findForm op.toNat tables.flatten = formIn tables op := by
  induction tables with
  | nil => rfl
  | cons table tables ih =>
    rw [List.flatten_cons, findForm_append, ih, formIn, formIn, List.findSome?_cons]
    cases findForm op.toNat table <;> rfl

theorem page1Rows_eq_flatten : page1Rows = page1Tables.flatten := by
  simp only [page1Rows, page1Tables, List.flatten_cons, List.flatten_nil, List.append_assoc, List.append_nil]

/-- Behind the page byte (none on page 1), the page's tables say how each of their opcodes is read. -/
def ReadsPage (pre : List Byte) (tables : List (List (Nat × Form))) : Prop :=
  ∀ {op : Byte} {form : Form} (bs : List Byte), formIn tables op = some form → decode (pre ++ op :: bs) = decodeForm form bs

theorem decodePage_flatten {tables : List (List (Nat × Form))} {op : Byte} {form : Form} (bs : List Byte)
    (h : formIn tables op = some form) : decodePage tables.flatten (op :: bs) = decodeForm form bs := by
  simp only [decodePage, findForm_flatten, h]

/-- Page 1 has no page byte: $10 and $11 are no opcodes of its tables. -/
theorem readsPage_one : ReadsPage [] page1Tables := by
  intro op form bs h
  have h10 : op ≠ 0x10#8 := by rintro rfl; cases h
  have h11 : op ≠ 0x11#8 := by rintro rfl; cases h
  rw [List.nil_append, decode, if_neg h10, if_neg h11, page1Rows_eq_flatten, decodePage_flatten bs h]

theorem readsPage_two : ReadsPage [0x10] [page2Branches, page2Registers] := fun bs h => decodePage_flatten bs h

theorem readsPage_three : ReadsPage [0x11] [page3Rows] := fun bs h => decodePage_flatten bs h

/-! One lemma for each kind of operand that follows an opcode (R60). -/

section Groups
variable {pre : List Byte} {tables : List (List (Nat × Form))} {op dir idx ext : Byte}

theorem decode_inherent {i : Instr} (hp : ReadsPage pre tables) (h : formIn tables op = some (.inh i)) (rest : List Byte) :
    decode ((pre ++ [op]) ++ rest) = .ok i rest := by
  simp [hp rest h, decodeForm]

theorem decode_byteOperand {mk : Byte → Instr} (hp : ReadsPage pre tables) (h : formIn tables op = some (.byte mk)) (v : Byte)
    (rest : List Byte) : decode ((pre ++ [op, v]) ++ rest) = .ok (mk v) rest := by
  simp [hp _ h, decodeForm, decodeByte, mapDecoded]

theorem decode_wordOperand {mk : Word → Instr} (hp : ReadsPage pre tables) (h : formIn tables op = some (.word mk)) (v : Word)
    (rest : List Byte) : decode ((pre ++ op :: encodeWord v) ++ rest) = .ok (mk v) rest := by
  simp [hp _ h, decodeForm, mapDecoded]

theorem decode_lea {mk : Indexed → Instr} (hp : ReadsPage pre tables) (h : formIn tables op = some (.lea mk)) (m : Indexed)
    (rest : List Byte) : decode ((pre ++ op :: encodeIndexed m) ++ rest) = .ok (mk m) rest := by
  simp [hp _ h, decodeForm, decodeIndexed_encodeIndexed, mapDecoded]

/-- The two registers of one width come back from their post-byte (R82). -/
theorem decodeRegPair_encodeRegPair (mk : Reg → Reg → Instr) {r1 r2 : Reg} (hw : (Machine.regWide r1 == Machine.regWide r2) = true)
    (rest : List Byte) : decodeRegPair mk (encodeRegPair r1 r2 :: rest) = .ok (mk r1 r2) rest := by
  have high : (encodeRegPair r1 r2).extractLsb' 4 4 = Machine.regCode r1 := by cases r1 <;> cases r2 <;> rfl
  have low : (encodeRegPair r1 r2).extractLsb' 0 4 = Machine.regCode r2 := by cases r1 <;> cases r2 <;> rfl
  simp only [decodeRegPair, high, low, Machine.regOfCode_regCode, hw, if_true]

theorem decode_regPair {mk : Reg → Reg → Instr} (hp : ReadsPage pre tables) (h : formIn tables op = some (.regPair mk))
    {r1 r2 : Reg} (hw : (Machine.regWide r1 == Machine.regWide r2) = true) (rest : List Byte) :
    decode ((pre ++ [op, encodeRegPair r1 r2]) ++ rest) = .ok (mk r1 r2) rest := by
  simp [hp _ h, decodeForm, decodeRegPair_encodeRegPair mk hw]

/-- A memory operand behind its three opcodes (R66 to R81). -/
theorem decode_memory {mk : MemOperand → Instr} (hp : ReadsPage pre tables) (hd : formIn tables dir = some (.direct mk))
    (hi : formIn tables idx = some (.indexed mk)) (he : formIn tables ext = some (.extended mk)) (m : MemOperand)
    (rest : List Byte) : decode ((pre ++ encodeMem dir idx ext m) ++ rest) = .ok (mk m) rest := by
  cases m with
  | direct a => simp [encodeMem, hp _ hd, decodeForm, decodeByte, mapDecoded]
  | extended a => simp [encodeMem, hp _ he, decodeForm, mapDecoded]
  | indexed m => simp [encodeMem, hp _ hi, decodeForm, decodeIndexed_encodeIndexed, mapDecoded]

/-- An 8-bit source behind its four opcodes. -/
theorem decode_source8 {mk : Src8 → Instr} (hp : ReadsPage pre tables) (hb : formIn tables op = some (.byte (mk <| .imm ·)))
    (hd : formIn tables (op + 0x10) = some (.direct (mk <| .mem ·)))
    (hi : formIn tables (op + 0x20) = some (.indexed (mk <| .mem ·)))
    (he : formIn tables (op + 0x30) = some (.extended (mk <| .mem ·))) (src : Src8) (rest : List Byte) :
    decode ((pre ++ encodeSrc8 op src) ++ rest) = .ok (mk src) rest := by
  cases src with
  | imm v => exact decode_byteOperand hp hb v rest
  | mem m => exact decode_memory hp hd hi he m rest

/-- A 16-bit source behind its four opcodes. -/
theorem decode_source16 {mk : Src16 → Instr} (hp : ReadsPage pre tables) (hw : formIn tables op = some (.word (mk <| .imm ·)))
    (hd : formIn tables (op + 0x10) = some (.direct (mk <| .mem ·)))
    (hi : formIn tables (op + 0x20) = some (.indexed (mk <| .mem ·)))
    (he : formIn tables (op + 0x30) = some (.extended (mk <| .mem ·))) (src : Src16) (rest : List Byte) :
    decode ((pre ++ encodeSrc16 op src) ++ rest) = .ok (mk src) rest := by
  cases src with
  | imm v => exact decode_wordOperand hp hw v rest
  | mem m => exact decode_memory hp hd hi he m rest

end Groups

/-- The bytes of a well-formed instruction decode to its first mnemonic, whatever follows them: the opcodes the encoder writes are
the rows of the decoder's tables (R84 to R86), and the operand behind them comes back. -/
theorem decode_encode_append {i : Instr} (hwf : i.wellFormed = true) (rest : List Byte) :
    decode (encode i ++ rest) = .ok (canonical i) rest := by
  cases i with
  | abx | asla | aslb | asra | asrb | clra | clrb | coma | comb | daa | deca | decb | inca | incb | lsla | lslb | lsra | lsrb
  | mul | nega | negb | nop | rola | rolb | rora | rorb | rti | rts | sex | swi | sync | tsta | tstb =>
    exact decode_inherent readsPage_one rfl rest
  | swi2 => exact decode_inherent readsPage_two rfl rest
  | swi3 => exact decode_inherent readsPage_three rfl rest
  | adca src | adcb src | adda src | addb src | anda src | andb src | bita src | bitb src | cmpa src | cmpb src | eora src
  | eorb src | lda src | ldb src | ora src | orb src | sbca src | sbcb src | suba src | subb src =>
    exact decode_source8 readsPage_one rfl rfl rfl rfl src rest
  | addd src | cmpx src | ldd src | ldu src | ldx src | subd src =>
    exact decode_source16 readsPage_one rfl rfl rfl rfl src rest
  | cmpd src | cmpy src | lds src | ldy src => exact decode_source16 readsPage_two rfl rfl rfl rfl src rest
  | cmps src | cmpu src => exact decode_source16 readsPage_three rfl rfl rfl rfl src rest
  | asl m | asr m | clr m | com m | dec m | inc m | jmp m | jsr m | lsl m | lsr m | neg m | rol m | ror m | sta m | stb m | std m
  | stu m | stx m | tst m => exact decode_memory readsPage_one rfl rfl rfl m rest
  | sts m | sty m => exact decode_memory readsPage_two rfl rfl rfl m rest
  | leas m | leau m | leax m | leay m => exact decode_lea readsPage_one rfl m rest
  | exg r1 r2 | tfr r1 r2 => exact decode_regPair readsPage_one rfl hwf rest
  | andcc v | cwai v | orcc v | pshs v | pshu v | puls v | pulu v => exact decode_byteOperand readsPage_one rfl v rest
  | bcc off | bcs off | beq off | bge off | bgt off | bhi off | bhs off | ble off | blo off | bls off | blt off | bmi off | bne off
  | bpl off | bra off | brn off | bsr off | bvc off | bvs off => exact decode_byteOperand readsPage_one rfl off rest
  | lbra off | lbsr off => exact decode_wordOperand readsPage_one rfl off rest
  | lbcc off | lbcs off | lbeq off | lbge off | lbgt off | lbhi off | lbhs off | lble off | lblo off | lbls off | lblt off
  | lbmi off | lbne off | lbpl off | lbrn off | lbvc off | lbvs off => exact decode_wordOperand readsPage_two rfl off rest

/-! ## Bytes behind what is decoded -/

/-- What is decoded, with more bytes left behind it. -/
def Decoded.leaving {α : Type} (more : List Byte) : Decoded α → Decoded α
  | .ok v rest => .ok v (rest ++ more)
  | .needMore => .needMore
  | .bad e => .bad e

/-- A reader that has its answer keeps it whatever bytes come behind. -/
def Decided {α : Type} (read : List Byte → Decoded α) : Prop :=
  ∀ bs more, read bs ≠ .needMore → read (bs ++ more) = (read bs).leaving more

theorem decided_ok {α : Type} (v : α) : Decided (Decoded.ok v) := fun _ _ _ => rfl

theorem decided_bad {α : Type} (e : DecodeError) : Decided fun _ => (.bad e : Decoded α) := fun _ _ _ => rfl

theorem decided_decodeByte : Decided decodeByte
  | [], _, h => absurd rfl h
  | _ :: _, _, _ => rfl

theorem decided_decodeWord : Decided decodeWord
  | [], _, h => absurd rfl h
  | [_], _, h => absurd rfl h
  | _ :: _ :: _, _, _ => rfl

theorem Decided.map {α β : Type} {read : List Byte → Decoded α} (hr : Decided read) (f : α → β) :
    Decided fun bs => mapDecoded f (read bs) := by
  intro bs more h
  have hd : read bs ≠ .needMore := fun e => h (by simp only [e, mapDecoded])
  simp only [hr bs more hd]
  cases read bs <;> rfl

/-- A byte and then a reader that the byte chooses: how a post-byte and an opcode are read. -/
theorem decided_cons {α : Type} {read : List Byte → Decoded α} (hnil : read [] = .needMore)
    (hcons : ∀ b, Decided fun bs => read (b :: bs)) : Decided read
  | [], _, h => absurd hnil h
  | b :: bs, more, h => hcons b bs more h

theorem decided_decodeSubmode (mmmm : Nat) (r : IdxReg) (ind : Bool) : Decided (decodeSubmode mmmm r ind) := by
  unfold decodeSubmode
  split
  case h_1 | h_3 => cases ind; exacts [decided_ok _, decided_bad _]
  case h_8 | h_11 => exact decided_decodeByte.map _
  case h_9 | h_12 => exact decided_decodeWord.map _
  case h_13 => cases ind; exacts [decided_bad _, decided_decodeWord.map _]
  case h_14 => exact decided_bad _
  all_goals exact decided_ok _

theorem decided_decodeIndexed : Decided decodeIndexed := by
  refine decided_cons rfl fun pb => ?_
  simp only [decodeIndexed]
  cases pb.getLsbD 7
  · exact decided_ok _
  · exact decided_decodeSubmode _ _ _

theorem decided_decodeRegPair (f : Reg → Reg → Instr) : Decided (decodeRegPair f) := by
  refine decided_cons rfl fun pb => ?_
  simp only [decodeRegPair]
  split
  · split
    · exact decided_ok _
    · exact decided_bad _
  · exact decided_bad _

theorem decided_decodeForm : ∀ form : Form, Decided (decodeForm form)
  | .inh i => decided_ok i
  | .byte f => decided_decodeByte.map f
  | .word f => decided_decodeWord.map f
  | .direct f => decided_decodeByte.map (f <| .direct ·)
  | .extended f => decided_decodeWord.map (f <| .extended ·)
  | .indexed f => decided_decodeIndexed.map (f <| .indexed ·)
  | .lea f => decided_decodeIndexed.map f
  | .regPair f => decided_decodeRegPair f

theorem decided_decodePage (rows : List (Nat × Form)) : Decided (decodePage rows) := by
  refine decided_cons rfl fun op => ?_
  simp only [decodePage]
  cases findForm op.toNat rows with
  | none => exact decided_bad _
  | some form => exact decided_decodeForm form

/-- Bytes that decode to an instruction or a rejection do so whatever comes behind them. -/
theorem decided_decode : Decided decode := by
  refine decided_cons rfl fun b => ?_
  simp only [decode]
  split
  · exact decided_decodePage page2Rows
  · split
    · exact decided_decodePage page3Rows
    · exact fun bs more h => decided_decodePage page1Rows (b :: bs) more h

/-- The beginning of bytes that an instruction takes up whole is not enough to decode anything. -/
theorem decode_eq_needMore_of_append {bytes more : List Byte} {i : Instr} (hmore : more ≠ []) (h : decode (bytes ++ more) = .ok i []) :
    decode bytes = .needMore := by
  by_contra hne
  rw [decided_decode bytes more hne] at h
  cases hd : decode bytes <;> simp [hd, Decoded.leaving, hmore] at h

/-- An instruction takes up no more than 5 bytes (R60). -/
theorem length_le_five_of_decode {code : List Byte} {i : Instr} (h : decode code = .ok i []) : code.length ≤ 5 := by
  rcases code with _ | ⟨a, _ | ⟨b, _ | ⟨c, _ | ⟨d, _ | ⟨e, _ | ⟨f, more⟩⟩⟩⟩⟩⟩
  case cons.cons.cons.cons.cons.cons =>
    have hneed := decode_eq_needMore_of_append (bytes := [a, b, c, d, e]) (List.cons_ne_nil f more) h
    exact absurd hneed (decode_five_bytes a b c d e [])
  all_goals simp

end Sys2Proof

namespace Sys2Proof.Machine

/-! ## The fetch -/

/-- The fetch reads on through RAM or ROM to the end of the instruction's bytes and no further; only PC changes, by one for each byte
read (R27, R62). -/
theorem fetchMore_codeAt {s : State} {i : Instr} : ∀ (more bytes : List Byte) (n : Nat) (p : Word),
    decode (bytes ++ more) = .ok i [] → CodeAt s more p → more.length ≤ n →
    fetchMore n bytes { s with pc := p } = (.ok i [], { s with pc := p + BitVec.ofNat 16 more.length })
  | [], bytes, n, p, hd, _, _ => by
    rw [List.append_nil] at hd
    cases n <;> simp [fetchMore, hd]
  | b :: more, bytes, n + 1, p, hd, ⟨hplain, hbyte, hcode⟩, hn => by
    have hneed : decode bytes = .needMore := decode_eq_needMore_of_append (List.cons_ne_nil b more) hd
    have hread : readByte p { s with pc := p } = (b, { s with pc := p }) := by
      rw [readByte_cell (st := { s with pc := p }) hplain]
      exact congrArg (·, { s with pc := p }) hbyte
    have hnext := fetchMore_codeAt more (bytes ++ [b]) n (p + 1) (by simpa using hd) hcode (Nat.le_of_succ_le_succ hn)
    have hpc : p + 1 + BitVec.ofNat 16 more.length = p + BitVec.ofNat 16 (more.length + 1) := by
      rw [BitVec.add_assoc, Nat.add_comm more.length 1, BitVec.ofNat_add]; rfl
    simp only [fetchMore, hneed, hread, hnext, hpc, List.length_cons]

/-- Where RAM or ROM holds at PC bytes that an instruction takes up whole, the fetch finds it. -/
theorem fetch_codeAt {s : State} {i : Instr} {code : List Byte} (hd : decode code = .ok i []) (hc : CodeAt s code s.pc) :
    fetch s = (.ok i [], { s with pc := s.pc + BitVec.ofNat 16 code.length }) :=
  fetchMore_codeAt code [] 5 s.pc hd hc (length_le_five_of_decode hd)

/-- A boundary that runs an instruction carries out what the fetch finds. -/
theorem step_running_ok {s t : State} {i : Instr} {rest : List Byte} (hr : Running s) (hf : fetch s = (.ok i rest, t)) :
    step s = exec i t := by
  have hnext : nextAction s = .run i t := by
    simp only [nextAction, hr.noInput, boundaryAction, hr.noInterrupt, hr.noWait, fetchAction, hf]
  rw [step_noInput hr.noInput, carryOut, hnext]

/-- Settles O8: the fetch reads the bytes that lie at PC and decodes them, and the step carries out what the fetch finds. -/
theorem stepRunsCodeInMemory : Obligations.StepRunsCodeInMemory := by
  intro s i hwf hr hc
  have hd : decode (encode i) = .ok (canonical i) [] := by simpa using decode_encode_append hwf []
  exact step_running_ok hr (fetch_codeAt hd hc)

end Sys2Proof.Machine
end

section
/-! PROOFS of 10_state: the step runs what its fetch decodes; the flags of the sums and differences as numbers; TFR and EXG; and
who writes the registers, the bit of NMI arming and CC. -/

namespace Sys2Proof.Machine

/-! ## The fetch -/

/-- The fetch reads on until the bytes read so far decode; PC is one further for each byte read (R27, R62). -/
theorem fetchMore_ok {i : Instr} {rest : List Byte} {t : State} : ∀ {n : Nat} {bytes : List Byte} {s : State},
    fetchMore n bytes s = (.ok i rest, t) →
      ∃ more, decode (bytes ++ more) = .ok i rest ∧ t.pc = s.pc + BitVec.ofNat 16 more.length
  | 0, bytes, s, h => by
    obtain ⟨hd, rfl⟩ := Prod.mk.inj h
    exact ⟨[], by simpa using hd, by simp⟩
  | n + 1, bytes, s, h => by
    unfold fetchMore at h
    split at h
    · obtain ⟨more, hd, hpc⟩ := fetchMore_ok h
      refine ⟨(readByte s.pc s).1 :: more, by simpa using hd, ?_⟩
      rw [hpc, readByte_pc, List.length_cons, Nat.add_comm, BitVec.ofNat_add, BitVec.add_assoc]
      rfl
    · obtain ⟨hd, rfl⟩ := Prod.mk.inj h
      exact ⟨[], by simpa using hd, by simp⟩

/-- Settles O7: the step carries out what the fetch finds, and the fetch reads exactly the bytes that decode to it. -/
theorem stepRunsFetchedInstruction : Obligations.StepRunsFetchedInstruction :=
  fun _ _ _ _ hr hf => ⟨step_running_ok hr hf, fetchMore_ok hf⟩

/-! ## Sums and differences as numbers -/

/-- The sign bit and the two readings of a word as a number, with half the range as a number of its own. -/
theorem signed_reading {w : Nat} (hw : 0 < w) (x : BitVec w) : ∃ half : Nat, 2 ^ (w - 1) = half ∧ 2 ^ w = 2 * half ∧
    ((x.msb = false ∧ x.toNat < half ∧ x.toInt = x.toNat) ∨
      (x.msb = true ∧ half ≤ x.toNat ∧ x.toNat < 2 * half ∧ x.toInt = x.toNat - 2 * half)) := by
  have hpow : 2 ^ w = 2 * 2 ^ (w - 1) := by rw [← Nat.pow_succ', Nat.succ_eq_add_one, Nat.sub_add_cancel hw]
  refine ⟨_, rfl, hpow, ?_⟩
  have hlt := x.isLt
  have hint := BitVec.toInt_eq_msb_cond x
  have hmsb := BitVec.msb_eq_decide x
  cases hm : x.msb <;> simp only [hm, Bool.false_eq_true, if_true, if_false] at hint hmsb
  · exact .inl ⟨rfl, by simpa using hmsb, hint⟩
  · exact .inr ⟨rfl, by simpa using hmsb, hpow ▸ hlt, by rw [hint, hpow]; push_cast; rfl⟩

/-- A number less than one range away from a word is reduced to it by taking away or adding the range once. -/
theorem emod_cases {x range : Int} (hlow : -range ≤ x) (hhigh : x < 2 * range) :
    x % range = x + range ∧ x < 0 ∨ x % range = x ∧ 0 ≤ x ∧ x < range ∨ x % range = x - range ∧ range ≤ x := by
  rcases lt_or_ge x 0 with h | h
  · exact .inl ⟨by rw [← Int.add_emod_right, Int.emod_eq_of_lt] <;> omega, h⟩
  · rcases lt_or_ge x range with h' | h'
    · exact .inr (.inl ⟨Int.emod_eq_of_lt h h', h, h'⟩)
    · exact .inr (.inr ⟨by rw [← Int.sub_emod_right, Int.emod_eq_of_lt] <;> omega, h'⟩)

/-- V of a sum says that the signed sum does not fit, and where it is clear the result is that sum (R101, R103). -/
theorem signed_sum {w : Nat} (hw : 0 < w) (a m : BitVec w) (c : Bool) :
    let r := BitVec.ofNat w (a.toNat + m.toNat + c.toNat)
    let sum : Int := a.toInt + m.toInt + c.toNat
    ((a.msb == m.msb && r.msb != a.msb) = true ↔ ¬ (-2 ^ (w - 1) ≤ sum ∧ sum < 2 ^ (w - 1))) ∧
      ((a.msb == m.msb && r.msb != a.msb) = false → r.toInt = sum) := by
  intro r sum
  obtain ⟨half, hhalf, hrange, ha⟩ := signed_reading hw a
  obtain ⟨_, rfl, -, hm⟩ := signed_reading hw m
  obtain ⟨_, rfl, -, hr⟩ := signed_reading hw r
  rw [hhalf] at hm hr
  have hpow : (2 : Int) ^ (w - 1) = half := by rw [← hhalf]; push_cast; rfl
  have hc := Bool.toNat_le c
  have hwrap : (r.toNat : Int) = (a.toNat + m.toNat + c.toNat) % (2 * half) := by
    rw [BitVec.toNat_ofNat, hrange]; push_cast; rfl
  have hred := emod_cases (x := a.toNat + m.toNat + c.toNat) (range := 2 * half) (by omega) (by omega)
  rw [← hwrap] at hred
  rw [hpow]
  rcases ha with ⟨ha, _⟩ | ⟨ha, _⟩ <;> rcases hm with ⟨hm, _⟩ | ⟨hm, _⟩ <;> rcases hr with ⟨hr, _⟩ | ⟨hr, _⟩ <;>
    simp only [ha, hm, hr, sum] <;> simp <;> omega

/-- The complement of a word as a signed number. -/
theorem toInt_not_eq {w : Nat} (hw : 0 < w) (x : BitVec w) : (~~~x).toInt = -x.toInt - 1 := by
  obtain ⟨half, hhalf, hrange, hx⟩ := signed_reading hw x
  obtain ⟨_, rfl, -, hn⟩ := signed_reading hw (~~~x)
  rw [hhalf, BitVec.toNat_not, hrange] at hn
  omega

/-- A difference is the sum with the complement, the borrow turned into a carry. -/
theorem ofInt_sub_eq_ofNat_add_not {w : Nat} (a m : BitVec w) (c : Bool) :
    BitVec.ofInt w (a.toNat - m.toNat - c.toNat) = BitVec.ofNat w (a.toNat + (~~~m).toNat + (!c).toNat) := by
  have hsum : ((a.toNat + (~~~m).toNat + (!c).toNat : Nat) : Int) = a.toNat - m.toNat - c.toNat + (2 ^ w : Nat) := by
    have hm := m.isLt
    rw [BitVec.toNat_not]
    cases c <;> simp only [Bool.not_false, Bool.not_true, Bool.toNat_true, Bool.toNat_false] <;> omega
  rw [← BitVec.ofInt_natCast, hsum]
  apply BitVec.eq_of_toNat_eq
  simp only [BitVec.toNat_ofInt, Int.add_emod_right]

/-- V of a difference says that the signed difference does not fit, and where it is clear the result is that difference (R102,
R103). -/
theorem signed_difference {w : Nat} (hw : 0 < w) (a m : BitVec w) (c : Bool) :
    let r := BitVec.ofInt w (a.toNat - m.toNat - c.toNat)
    let difference : Int := a.toInt - m.toInt - c.toNat
    ((a.msb != m.msb && r.msb != a.msb) = true ↔ ¬ (-2 ^ (w - 1) ≤ difference ∧ difference < 2 ^ (w - 1))) ∧
      ((a.msb != m.msb && r.msb != a.msb) = false → r.toInt = difference) := by
  intro r difference
  have hdifference : difference = a.toInt + (~~~m).toInt + (!c).toNat := by
    rw [toInt_not_eq hw]
    cases c <;> simp [difference] <;> omega
  have hsign : (a.msb != m.msb) = (a.msb == (~~~m).msb) := by
    rw [BitVec.msb_not, decide_eq_true hw]
    cases a.msb <;> cases m.msb <;> rfl
  rw [hdifference, hsign, show r = _ from ofInt_sub_eq_ofNat_add_not a m c]
  exact signed_sum hw a (~~~m) !c

/-- Settles O20: V by the signed sum and difference, C and H by the numbers that `add8`, `sub8`, `add16` and `sub16` compare. -/
theorem arithmeticFlagsMean : Obligations.ArithmeticFlagsMean := by
  refine ⟨⟨fun a m c cc => ?_, fun a m cc => ?_⟩, fun h a m c cc => ?_, fun a m cc => ?_⟩
  · obtain ⟨hv, hfits⟩ := signed_sum (by decide) a m c
    exact ⟨by simp [add8], hv.trans (by omega), hfits, by simp [add8]; omega, by simp [add8]; omega, rfl, rfl, rfl⟩
  · obtain ⟨hv, hfits⟩ := signed_sum (by decide) a m false
    simp only [Bool.toNat_false, Nat.cast_zero, add_zero] at hv hfits
    exact ⟨by simp [add16], hv.trans (by omega), hfits, by simp [add16]; omega, rfl⟩
  · obtain ⟨hv, hfits⟩ := signed_difference (by decide) a m c
    exact ⟨by simp [sub8, Int.emod_nonneg], hv.trans (by omega), hfits, by simp [sub8]; omega⟩
  · obtain ⟨hv, hfits⟩ := signed_difference (by decide) a m false
    simp only [Bool.toNat_false, Nat.cast_zero, sub_zero] at hv hfits
    exact ⟨by simp [sub16, Int.emod_nonneg], hv.trans (by omega), hfits, by simp [sub16], rfl⟩

/-! ## The registers by name -/

@[simp] theorem loByte_zext8 (v : Byte) : loByte (zext8 v) = v := by
  simp [loByte, zext8, BitVec.extractLsb'_setWidth_of_le]

theorem zext8_injective {v w : Byte} (h : zext8 v = zext8 w) : v = w := by
  rw [← loByte_zext8 v, h, loByte_zext8]

/-- CC reads as the byte it was loaded from: "All eight bits are storage" (R24). -/
@[simp] theorem ccByte_ccOfByte (v : Byte) : ccByte (ccOfByte v) = v := by
  apply BitVec.eq_of_getLsbD_eq
  intro k hk
  simp only [ccByte, ccOfByte, BitVec.getLsbD_append]
  interval_cases k <;> simp

/-- A 16-bit register reads what was written to it. -/
theorem getReg_setReg_wide {r : Reg} (hw : regWide r = true) (v : Word) (s : State) : getReg r (setReg r v s) = v := by
  cases r with
  | d => exact catBytes_hi_lo v
  | x | y | u | s | pc => rfl
  | a | b | cc | dp => cases hw

/-- An 8-bit register takes the low byte. -/
theorem getReg_setReg_narrow {r : Reg} (hw : regWide r = false) (v : Word) (s : State) :
    getReg r (setReg r v s) = zext8 (loByte v) := by
  cases r with
  | d | x | y | u | s | pc => cases hw
  | a | b | dp => rfl
  | cc => exact congrArg zext8 (ccByte_ccOfByte (loByte v))

/-- An 8-bit register reads as a word with high byte 0. -/
theorem zext8_loByte_getReg {r : Reg} (hw : regWide r = false) (s : State) : zext8 (loByte (getReg r s)) = getReg r s := by
  cases r with
  | d | x | y | u | s | pc => cases hw
  | a | b | cc | dp => exact congrArg zext8 (loByte_zext8 _)

/-- A register takes the value of another one of its width whole (R82). -/
theorem getReg_setReg_getReg {r1 r2 : Reg} (hw : regWide r1 = regWide r2) (s t : State) :
    getReg r2 (setReg r2 (getReg r1 s) t) = getReg r1 s := by
  cases h2 : regWide r2 with
  | true => exact getReg_setReg_wide h2 _ t
  | false => rw [getReg_setReg_narrow h2, zext8_loByte_getReg (hw.trans h2)]

/-- A write leaves every register alone that does not share the written one's storage (R22). -/
theorem getReg_setReg_other {r q : Reg} (h : r ∉ withHalves q) (v : Word) (s : State) : getReg r (setReg q v s) = getReg r s := by
  cases q <;> cases r <;> simp_all [withHalves, setReg, getReg, regD]

/-- Two registers of one width share storage only if they are the same one. -/
theorem not_mem_withHalves {r1 r2 : Reg} (hw : regWide r1 = regWide r2) (hne : r1 ≠ r2) : r1 ∉ withHalves r2 := by
  cases r1 <;> cases r2 <;> simp_all [withHalves, regWide]

/-- The registers that share storage with a written one, as R22 tells them apart. -/
theorem not_mem_withHalves_of {r q : Reg} (hne : r ≠ q) (hd : q = .d → r ≠ .a ∧ r ≠ .b) (hab : q = .a ∨ q = .b → r ≠ .d) :
    r ∉ withHalves q := by
  cases q <;> simp_all [withHalves]

/-! ## TFR and EXG -/

/-- From a state to another nothing changes but registers, and NMI is armed if it was or is to be. -/
def OnlyRegisters (s t : State) (armed : Bool) : Prop :=
  ∃ a b x y u sp pc dp cc, t = { s with a, b, x, y, u, s := sp, pc, dp, cc, nmiArmed := s.nmiArmed || armed }

theorem onlyRegisters_setReg (r : Reg) (v : Word) (s : State) : OnlyRegisters s (setReg r v s) (r == .s) := by
  cases r <;> simp [OnlyRegisters, setReg, setD, loadS]

theorem OnlyRegisters.trans {s t u : State} {first second : Bool} (h : OnlyRegisters s t first) (h' : OnlyRegisters t u second) :
    OnlyRegisters s u (first || second) := by
  obtain ⟨_, _, _, _, _, _, _, _, _, rfl⟩ := h
  obtain ⟨_, _, _, _, _, _, _, _, _, rfl⟩ := h'
  exact ⟨_, _, _, _, _, _, _, _, _, by rw [Bool.or_assoc]⟩

theorem exec_tfr {r1 r2 : Reg} (hw : regWide r1 = regWide r2) (s : State) :
    exec (.tfr r1 r2) s = .next (setReg r2 (getReg r1 s) s) := if_pos (beq_iff_eq.mpr hw)

theorem exec_exg {r1 r2 : Reg} (hw : regWide r1 = regWide r2) (s : State) :
    exec (.exg r1 r2) s = .next (setReg r2 (getReg r1 s) (setReg r1 (getReg r2 s) s)) := if_pos (beq_iff_eq.mpr hw)

/-- TFR and EXG of two widths are refused (R82). -/
theorem exec_tfr_exg_refused {r1 r2 : Reg} (hw : regWide r1 ≠ regWide r2) (s : State) :
    exec (.tfr r1 r2) s = .refused .undefinedTransferOperand ∧ exec (.exg r1 r2) s = .refused .undefinedTransferOperand :=
  ⟨if_neg (mt beq_iff_eq.mp hw), if_neg (mt beq_iff_eq.mp hw)⟩

/-- EXG's first register holds what the second held: the second write leaves it alone, or is to the same register. -/
theorem getReg_exchanged {r1 r2 : Reg} (hw : regWide r1 = regWide r2) (s : State) :
    getReg r1 (setReg r2 (getReg r1 s) (setReg r1 (getReg r2 s) s)) = getReg r2 s := by
  by_cases hne : r1 = r2
  · subst hne
    exact getReg_setReg_getReg rfl s _
  · rw [getReg_setReg_other (not_mem_withHalves hw hne), getReg_setReg_getReg hw.symm]

/-- Settles O32: TFR is one write of a register and EXG two, of values both read before. -/
theorem registerTransfers : Obligations.RegisterTransfers := by
  refine ⟨fun _ _ _ => ⟨rfl, rfl, rfl, rfl⟩, fun r1 r2 s => ⟨fun hw => ⟨?_, ?_⟩, fun hw => exec_tfr_exg_refused hw s⟩⟩
  · exact ⟨_, exec_tfr hw s, getReg_setReg_getReg hw s s,
      fun r hne hd hab => getReg_setReg_other (not_mem_withHalves_of hne hd hab) _ s, onlyRegisters_setReg r2 _ s⟩
  · refine ⟨_, exec_exg hw s, getReg_setReg_getReg hw s _, getReg_exchanged hw s, fun r hne1 hne2 hd hab => ?_,
      (onlyRegisters_setReg r1 _ s).trans (onlyRegisters_setReg r2 _ _)⟩
    have h1 : r ∉ withHalves r1 := not_mem_withHalves_of hne1 (fun h => hd (.inl h)) fun h => hab (by tauto)
    have h2 : r ∉ withHalves r2 := not_mem_withHalves_of hne2 (fun h => hd (.inr h)) fun h => hab (by tauto)
    rw [getReg_setReg_other h2, getReg_setReg_other h1]

/-! ## Flags that keep their value -/

/-- Every flag marked in `kept` has the same value in two condition codes. -/
structure SameFlags (kept old new : CC) : Prop where
  e : kept.e = true → new.e = old.e
  f : kept.f = true → new.f = old.f
  h : kept.h = true → new.h = old.h
  i : kept.i = true → new.i = old.i
  n : kept.n = true → new.n = old.n
  z : kept.z = true → new.z = old.z
  v : kept.v = true → new.v = old.v
  c : kept.c = true → new.c = old.c

theorem SameFlags.refl (kept cc : CC) : SameFlags kept cc cc := by constructor <;> exact fun _ => rfl

theorem SameFlags.of_eq {kept old new : CC} (h : new = old) : SameFlags kept old new := h ▸ .refl kept new

theorem SameFlags.trans {kept cc1 cc2 cc3 : CC} (h : SameFlags kept cc1 cc2) (h' : SameFlags kept cc2 cc3) :
    SameFlags kept cc1 cc3 where
  e k := (h'.e k).trans (h.e k)
  f k := (h'.f k).trans (h.f k)
  h k := (h'.h k).trans (h.h k)
  i k := (h'.i k).trans (h.i k)
  n k := (h'.n k).trans (h.n k)
  z k := (h'.z k).trans (h.z k)
  v k := (h'.v k).trans (h.v k)
  c k := (h'.c k).trans (h.c k)

/-- The flags that an operation keeps which never writes E, F and I: those of R26's five columns that are marked. -/
def keeping (h n z v c : Bool) : CC := { e := true, f := true, h, i := true, n, z, v, c }

/-- All flags marked, or none. -/
def allFlags (b : Bool) : CC := { e := b, f := b, h := b, i := b, n := b, z := b, v := b, c := b }

theorem sameFlags_none (old new : CC) : SameFlags (allFlags false) old new := by constructor <;> exact nofun

theorem SameFlags.eq_of_all {old new : CC} (h : SameFlags (allFlags true) old new) : new = old := by
  obtain ⟨he, hf, hh, hi, hn, hz, hv, hc⟩ := h
  cases old
  cases new
  simp_all [allFlags]

section Operations
variable (a m : Byte) (x y : Word) (b : Bool) (cc : CC)

theorem add8_keeps : SameFlags (keeping false false false false false) cc (add8 a m b cc).2 := by
  constructor <;> simp [keeping, add8, setNZ8]

theorem sub8_keeps (h : Bool) : SameFlags (keeping false false false false false) cc (sub8 h a m b cc).2 := by
  constructor <;> simp [keeping, sub8, setNZ8]

theorem neg8_keeps : SameFlags (keeping false false false false false) cc (neg8 b m cc).2 := by
  constructor <;> simp [keeping, neg8, setNZ8]

theorem asl8_keeps : SameFlags (keeping false false false false false) cc (asl8 b m cc).2 := by
  constructor <;> simp [keeping, asl8, setNZ8]

theorem asr8_keeps : SameFlags (keeping false false false true false) cc (asr8 b m cc).2 := by
  constructor <;> simp [keeping, asr8, setNZ8]

theorem add16_keeps : SameFlags (keeping true false false false false) cc (add16 x y cc).2 := by
  constructor <;> simp [keeping, add16, setNZ16]

theorem sub16_keeps : SameFlags (keeping true false false false false) cc (sub16 x y cc).2 := by
  constructor <;> simp [keeping, sub16, setNZ16]

theorem com8_keeps : SameFlags (keeping true false false false false) cc (com8 m cc).2 := by
  constructor <;> simp [keeping, com8, setNZ8V0, setNZ8]

theorem clr8_keeps : SameFlags (keeping true false false false false) cc (clr8 cc).2 := by
  constructor <;> simp [keeping, clr8]

theorem rol8_keeps : SameFlags (keeping true false false false false) cc (rol8 m cc).2 := by
  constructor <;> simp [keeping, rol8, setNZ8]

theorem daa8_keeps : SameFlags (keeping true false false false false) cc (daa8 a cc).2 := by
  constructor <;> simp [keeping, daa8, setNZ8V0, setNZ8]

theorem lsr8_keeps : SameFlags (keeping true false false true false) cc (lsr8 m cc).2 := by
  constructor <;> simp [keeping, lsr8]

theorem ror8_keeps : SameFlags (keeping true false false true false) cc (ror8 m cc).2 := by
  constructor <;> simp [keeping, ror8, setNZ8]

theorem inc8_keeps : SameFlags (keeping true false false false true) cc (inc8 m cc).2 := by
  constructor <;> simp [keeping, inc8, setNZ8]

theorem dec8_keeps : SameFlags (keeping true false false false true) cc (dec8 m cc).2 := by
  constructor <;> simp [keeping, dec8, setNZ8]

theorem setNZ8V0_keeps : SameFlags (keeping true false false false true) cc (setNZ8V0 m cc) := by
  constructor <;> simp [keeping, setNZ8V0, setNZ8]

theorem logic8_keeps : SameFlags (keeping true false false false true) cc (logic8 m cc).2 := setNZ8V0_keeps m cc

theorem setNZ16V0_keeps : SameFlags (keeping true false false false true) cc (setNZ16V0 x cc) := by
  constructor <;> simp [keeping, setNZ16V0, setNZ16]

theorem mul8_keeps : SameFlags (keeping true true false true false) cc (mul8 a m cc).2 := by
  constructor <;> simp [keeping, mul8]

theorem setZ_keeps : SameFlags (keeping true true false true true) cc { cc with z := b } := by
  constructor <;> simp [keeping]

end Operations

/-! ## The frame of an operation -/

/-- Between two states the registers that are not in a list keep their value, PC and CC aside, NMI is armed if it was or is to be,
and the flags marked keep their value. -/
structure Frame (s t : State) (writes : List Reg) (arms : Bool) (kept : CC) : Prop where
  regs : ∀ r, r ∉ writes → r ≠ .pc → r ≠ .cc → getReg r t = getReg r s
  armed : t.nmiArmed = (s.nmiArmed || arms)
  flags : SameFlags kept s.cc t.cc

/-- One operation after another: what the later one writes stands first. -/
theorem Frame.seq {ws vs : List Reg} {first second : Bool} {kept : CC} {s t u : State} (h : Frame s t vs first kept)
    (h' : Frame t u ws second kept) : Frame s u (ws ++ vs) (first || second) kept where
  regs r hr hpc hcc := by
    rw [List.mem_append, not_or] at hr
    rw [h'.regs r hr.1 hpc hcc, h.regs r hr.2 hpc hcc]
  armed := by rw [h'.armed, h.armed, Bool.or_assoc]
  flags := h.flags.trans h'.flags

/-- An operation whose writes are among those listed. -/
theorem Frame.mono {ws vs : List Reg} {arms : Bool} {kept : CC} {s t : State} (h : Frame s t ws arms kept) (hsub : ws ⊆ vs) :
    Frame s t vs arms kept :=
  ⟨fun r hr => h.regs r fun hm => hr (hsub hm), h.armed, h.flags⟩

section Frames
variable {kept : CC}

theorem Frame.refl (s : State) : Frame s s [] false kept := ⟨fun _ _ _ _ => rfl, (Bool.or_false _).symm, .refl _ _⟩

/-- An operation that changes none of the registers but PC and CC. -/
theorem Frame.quiet {s t : State} (hcc : SameFlags kept s.cc t.cc) (ha : t.a = s.a := by simp) (hb : t.b = s.b := by simp)
    (hx : t.x = s.x := by simp) (hy : t.y = s.y := by simp) (hu : t.u = s.u := by simp) (hs : t.s = s.s := by simp)
    (hdp : t.dp = s.dp := by simp) (harmed : t.nmiArmed = s.nmiArmed := by simp) : Frame s t [] false kept where
  regs r _ hpc hcc := by cases r <;> simp_all [getReg, regD]
  armed := by rw [harmed, Bool.or_false]
  flags := hcc

/-- CC replaced, and PC. -/
theorem frame_cc {s : State} {cc : CC} (h : SameFlags kept s.cc cc) : Frame s { s with cc } [] false kept := .quiet h

theorem frame_pc (pc : Word) (s : State) : Frame s { s with pc } [] false kept := .quiet (.refl _ _)

theorem frame_wait (wait : Wait) (s : State) : Frame s { s with wait } [] false kept := .quiet (.refl _ _)

/-! ### Registers -/

/-- A register written by its name; a write of CC keeps no flag. -/
theorem frame_setReg {r : Reg} (hcc : r = .cc → kept = allFlags false) (v : Word) (s : State) :
    Frame s (setReg r v s) (withHalves r) (r == .s) kept where
  regs _ h _ _ := getReg_setReg_other h v s
  armed := by cases r <;> simp [setReg]
  flags := by
    cases r with
    | cc => rw [hcc rfl]; exact sameFlags_none _ _
    | d | x | y | u | s | pc | a | b | dp => exact .refl _ _

/-- An accumulator by its name. -/
def accReg : Acc → Reg
  | .a => .a
  | .b => .b

theorem setAcc_eq_setReg (r : Acc) (v : Byte) (s : State) : setAcc r v s = setReg (accReg r) (zext8 v) s := by
  cases r <;> simp [setAcc, setReg, accReg]

theorem frame_setAcc (r : Acc) (v : Byte) (s : State) : Frame s (setAcc r v s) (withHalves (accReg r)) false kept := by
  rw [setAcc_eq_setReg]
  cases r
  · exact frame_setReg (r := .a) nofun _ s
  · exact frame_setReg (r := .b) nofun _ s

/-- A 16-bit register by its name. -/
def wordReg : Reg16 → Reg
  | .d => .d
  | .x => .x
  | .y => .y
  | .u => .u
  | .s => .s

theorem loadReg16_eq_setReg (r : Reg16) (v : Word) (s : State) : loadReg16 r v s = setReg (wordReg r) v s := by
  cases r <;> rfl

theorem frame_loadReg16 (r : Reg16) (v : Word) (s : State) :
    Frame s (loadReg16 r v s) (withHalves (wordReg r)) (wordReg r == .s) kept := by
  rw [loadReg16_eq_setReg]
  exact frame_setReg (by cases r <;> nofun) v s

/-- An index register by its name. -/
def idxReg : IdxReg → Reg
  | .x => .x
  | .y => .y
  | .u => .u
  | .s => .s

theorem frame_setIdx (r : IdxReg) (v : Word) (s : State) : Frame s (setIdx r v s) [idxReg r] false kept where
  regs q h _ _ := by cases r <;> cases q <;> simp_all [idxReg, setIdx, getReg, regD]
  armed := by simp
  flags := .of_eq (by simp)

/-- A stack pointer by its name. -/
def spReg : StackPtr → Reg
  | .s => .s
  | .u => .u

theorem frame_setSp (p : StackPtr) (v : Word) (s : State) : Frame s (setSp p v s) [spReg p] false kept := by
  cases p
  · exact frame_setIdx .s v s
  · exact frame_setIdx .u v s

/-! ### The bus and the stacks -/

theorem frame_nextDraw (s : State) : Frame s (nextDraw s) [] false kept := .quiet (.refl _ _)

theorem frame_readByte (addr : Word) (s : State) : Frame s (readByte addr s).2 [] false kept := .quiet (.of_eq (by simp))

theorem frame_readWord (addr : Word) (s : State) : Frame s (readWord addr s).2 [] false kept := .quiet (.of_eq (by simp))

theorem frame_writeByte (addr : Word) (v : Byte) (s : State) : Frame s (writeByte addr v s) [] false kept :=
  .quiet (.of_eq (by simp))

theorem frame_writeWord (addr v : Word) (s : State) : Frame s (writeWord addr v s) [] false kept := .quiet (.of_eq (by simp))

theorem frame_push8 (p : StackPtr) (v : Byte) (s : State) : Frame s (push8 p v s) [spReg p] false kept :=
  (frame_setSp p _ s).seq (frame_writeByte _ v _)

theorem frame_push16 (p : StackPtr) (v : Word) (s : State) : Frame s (push16 p v s) [spReg p] false kept :=
  ((frame_push8 p _ s).seq (frame_push8 p _ _)).mono (by simp)

theorem frame_pull8 (p : StackPtr) (s : State) : Frame s (pull8 p s).2 [spReg p] false kept :=
  (frame_readByte _ s).seq (frame_setSp p _ _)

theorem frame_pull16 (p : StackPtr) (s : State) : Frame s (pull16 p s).2 [spReg p] false kept :=
  ((frame_pull8 p s).seq (frame_pull8 p _)).mono (by simp)

/-! ### Operands -/

theorem frame_indexedBase (m : Indexed) (s : State) : Frame s (indexedBase m s).2 (indexWritten m) false kept := by
  cases m with
  | inc1 r | inc2 r _ | dec1 r | dec2 r _ => exact frame_setIdx r _ s
  | off5 | noOff | off8 | off16 | accA | accB | accD | pcr8 | pcr16 | extInd => exact .refl s

theorem frame_indexedAddress (m : Indexed) (s : State) : Frame s (indexedAddress m s).2 (indexWritten m) false kept := by
  unfold indexedAddress
  split
  · exact (frame_indexedBase m s).seq (frame_readWord _ _)
  · exact frame_indexedBase m s

theorem frame_effectiveAddress (m : MemOperand) (s : State) : Frame s (effectiveAddress m s).2 (operandWrites m) false kept := by
  cases m with
  | direct | extended => exact .refl s
  | indexed m => exact frame_indexedAddress m s

theorem frame_operand8 (src : Src8) (s : State) : Frame s (operand8 src s).2 (source8Writes src) false kept := by
  cases src with
  | imm => exact .refl s
  | mem m => exact (frame_effectiveAddress m s).seq (frame_readByte _ _)

theorem frame_operand16 (src : Src16) (s : State) : Frame s (operand16 src s).2 (source16Writes src) false kept := by
  cases src with
  | imm => exact .refl s
  | mem m => exact (frame_effectiveAddress m s).seq (frame_readWord _ _)

/-! ### The shapes of the instructions -/

theorem frame_accOperand {f : Byte → Byte → CC → Byte × CC} (hf : ∀ a m cc, SameFlags kept cc (f a m cc).2) (r : Acc) (src : Src8)
    (s : State) : Frame s (accOperand r f src s) (withHalves (accReg r) ++ source8Writes src) false kept :=
  ((frame_operand8 src s).seq (frame_cc (hf _ _ _))).seq (frame_setAcc r _ _)

theorem frame_testOperand {f : Byte → Byte → CC → Byte × CC} (hf : ∀ a m cc, SameFlags kept cc (f a m cc).2) (r : Acc)
    (src : Src8) (s : State) : Frame s (testOperand r f src s) (source8Writes src) false kept :=
  (frame_operand8 src s).seq (frame_cc (hf _ _ _))

theorem frame_accUnary {f : Byte → CC → Byte × CC} (hf : ∀ m cc, SameFlags kept cc (f m cc).2) (r : Acc) (s : State) :
    Frame s (accUnary r f s) (withHalves (accReg r)) false kept :=
  ((frame_cc (hf _ _)).seq (frame_setAcc r _ _)).mono (by simp)

theorem frame_memUnary {f : Byte → CC → Byte × CC} (hf : ∀ m cc, SameFlags kept cc (f m cc).2) (m : MemOperand) (s : State) :
    Frame s (memUnary f m s) (operandWrites m) false kept :=
  (((frame_effectiveAddress m s).seq (frame_readByte _ _)).seq (frame_cc (hf _ _))).seq (frame_writeByte _ _ _)

theorem frame_withFreeH {ws : List Reg} {op : Bool → State → State} (hop : ∀ h t, Frame t (op h t) ws false kept) (s : State) :
    Frame s (withFreeH op s) ws false kept :=
  ((frame_nextDraw s).seq (hop _ _)).mono (by simp)

theorem frame_loadAcc (r : Acc) (src : Src8) (s : State) :
    Frame s (loadAcc r src s) (withHalves (accReg r) ++ source8Writes src) false (keeping true false false false true) :=
  ((frame_operand8 src s).seq (frame_cc (setNZ8V0_keeps _ _))).seq (frame_setAcc r _ _)

theorem frame_storeAcc (r : Acc) (m : MemOperand) (s : State) :
    Frame s (storeAcc r m s) (operandWrites m) false (keeping true false false false true) :=
  ((frame_effectiveAddress m s).seq (frame_cc (setNZ8V0_keeps _ _))).seq (frame_writeByte _ _ _)

theorem frame_wordOperand {f : Word → Word → CC → Word × CC} (hf : ∀ x y cc, SameFlags kept cc (f x y cc).2) (r : Reg16)
    (src : Src16) (s : State) :
    Frame s (wordOperand r f src s) (withHalves (wordReg r) ++ source16Writes src) (wordReg r == .s) kept :=
  ((frame_operand16 src s).seq (frame_cc (hf _ _ _))).seq (frame_loadReg16 r _ _)

theorem frame_compareWord (r : Reg16) (src : Src16) (s : State) :
    Frame s (compareWord r src s) (source16Writes src) false (keeping true false false false false) :=
  (frame_operand16 src s).seq (frame_cc (sub16_keeps _ _ _))

theorem frame_loadWord (r : Reg16) (src : Src16) (s : State) :
    Frame s (loadWord r src s) (withHalves (wordReg r) ++ source16Writes src) (wordReg r == .s)
      (keeping true false false false true) :=
  ((frame_operand16 src s).seq (frame_cc (setNZ16V0_keeps _ _))).seq (frame_loadReg16 r _ _)

theorem frame_storeWord (r : Reg16) (m : MemOperand) (s : State) :
    Frame s (storeWord r m s) (operandWrites m) false (keeping true false false false true) :=
  ((frame_effectiveAddress m s).seq (frame_cc (setNZ16V0_keeps _ _))).seq (frame_writeWord _ _ _)

theorem frame_branchIf (c : Cond) (off : Word) (s : State) : Frame s (branchIf c off s) [] false kept := by
  unfold branchIf
  split
  · exact frame_pc _ s
  · exact .refl s

theorem frame_callTo (target : Word) (s : State) : Frame s (callTo target s) [.s] false kept :=
  (frame_push16 .s s.pc s).seq (frame_pc target _)

/-! ### Pulls and register lists -/

theorem frame_pullCC (p : StackPtr) (s : State) : Frame s (pullCC p s) [spReg p] false (allFlags false) :=
  (frame_pull8 p s).seq (frame_cc (sameFlags_none _ _))

theorem frame_pullA (p : StackPtr) (s : State) : Frame s (pullA p s) [.a, .d, spReg p] false kept :=
  (frame_pull8 p s).seq (frame_setAcc .a _ _)

theorem frame_pullB (p : StackPtr) (s : State) : Frame s (pullB p s) [.b, .d, spReg p] false kept :=
  (frame_pull8 p s).seq (frame_setAcc .b _ _)

theorem frame_setDp (v : Byte) (s : State) : Frame s { s with dp := v } [.dp] false kept := by
  have h := frame_setReg (kept := kept) (r := .dp) nofun (zext8 v) s
  rwa [setReg, loByte_zext8] at h

theorem frame_pullDP (p : StackPtr) (s : State) : Frame s (pullDP p s) [.dp, spReg p] false kept :=
  (frame_pull8 p s).seq (frame_setDp _ _)

theorem frame_pullX (p : StackPtr) (s : State) : Frame s (pullX p s) [.x, spReg p] false kept :=
  (frame_pull16 p s).seq (frame_setIdx .x _ _)

theorem frame_pullY (p : StackPtr) (s : State) : Frame s (pullY p s) [.y, spReg p] false kept :=
  (frame_pull16 p s).seq (frame_setIdx .y _ _)

/-- Pulling the other stack pointer arms NMI where that is S (R273). -/
theorem frame_pullOther (p : StackPtr) (s : State) :
    Frame s (pullOther p s) [spReg (otherSp p), spReg p] (p == .u) kept := by
  cases p
  · exact (frame_pull16 .s s).seq (frame_setIdx .u _ _)
  · exact (frame_pull16 .u s).seq (frame_setReg (r := .s) nofun _ _)

theorem frame_pullPC (p : StackPtr) (s : State) : Frame s (pullPC p s) [spReg p] false kept :=
  (frame_pull16 p s).seq (frame_pc _ _)

/-- Operations one after another that write to the same list. -/
theorem Frame.trans {ws : List Reg} {first second : Bool} {s t u : State} (h : Frame s t ws first kept)
    (h' : Frame t u ws second kept) : Frame s u ws (first || second) kept := (h.seq h').mono (by simp)

/-- One transfer of a register list. -/
theorem frame_doIf {ws vs : List Reg} {c arms : Bool} {f : State → State} {s : State} (hf : c = true → Frame s (f s) ws arms kept)
    (hsub : c = true → ws ⊆ vs) : Frame s (doIf c f s) vs (arms && c) kept := by
  cases c with
  | false => rw [Bool.and_false]; exact (Frame.refl s).mono (by simp)
  | true => rw [Bool.and_true]; exact (hf rfl).mono (hsub rfl)

theorem frame_pushList (p : StackPtr) (list : Byte) (s : State) : Frame s (pushList p list s) [spReg p] false kept := by
  have byte : ∀ c v t, Frame t (doIf c (push8 p v) t) [spReg p] false kept :=
    fun _ v t => frame_doIf (fun _ => frame_push8 p v t) fun _ => .refl _
  have word : ∀ c v t, Frame t (doIf c (push16 p v) t) [spReg p] false kept :=
    fun _ v t => frame_doIf (fun _ => frame_push16 p v t) fun _ => .refl _
  exact (word _ _ _).trans <| (word _ _ _).trans <| (word _ _ _).trans <| (word _ _ _).trans <|
    (byte _ _ _).trans <| (byte _ _ _).trans <| (byte _ _ _).trans (byte _ _ _)

/-- A list pulled from a stack: CC only with bit 0, and NMI armed by bit 6 of a list pulled from the U stack (R83, R273). -/
theorem frame_pullList (p : StackPtr) (list : Byte) (s : State) :
    Frame s (pullList p list s) (spReg p :: listWrites (spReg (otherSp p)) list) (p == .u && list.getLsbD 6)
      (allFlags (!list.getLsbD 0)) := by
  have h : Frame s (pullList p list s) _ _ _ :=
    (frame_doIf (vs := spReg p :: listWrites (spReg (otherSp p)) list) (kept := allFlags (!list.getLsbD 0))
      (fun h => by rw [h]; exact frame_pullCC p _) (by simp)).trans <|
    (frame_doIf (fun _ => frame_pullA p _) (by simp +contextual [listWrites])).trans <|
    (frame_doIf (fun _ => frame_pullB p _) (by simp +contextual [listWrites])).trans <|
    (frame_doIf (fun _ => frame_pullDP p _) (by simp +contextual [listWrites])).trans <|
    (frame_doIf (fun _ => frame_pullX p _) (by simp +contextual [listWrites])).trans <|
    (frame_doIf (fun _ => frame_pullY p _) (by simp +contextual [listWrites])).trans <|
    (frame_doIf (fun _ => frame_pullOther p _) (by simp +contextual [listWrites])).trans <|
    frame_doIf (fun _ => frame_pullPC p _) (by simp)
  simpa only [Bool.false_and, Bool.false_or, Bool.or_false] using h

/-! ### Interrupts -/

theorem frame_pushEntireFrame (s : State) : Frame s (pushEntireFrame s) [.s] false kept :=
  (frame_push16 .s _ _).trans <| (frame_push16 .s _ _).trans <| (frame_push16 .s _ _).trans <| (frame_push16 .s _ _).trans <|
    (frame_push8 .s _ _).trans <| (frame_push8 .s _ _).trans <| (frame_push8 .s _ _).trans (frame_push8 .s _ _)

theorem frame_pushShortFrame (s : State) : Frame s (pushShortFrame s) [.s] false kept :=
  (frame_push16 .s _ _).trans (frame_push8 .s _ _)

theorem frame_setE (he : kept.e = false) (v : Bool) (s : State) : Frame s (setE v s) [] false kept :=
  frame_cc { SameFlags.refl kept s.cc with e := fun k => absurd (he.symm.trans k) Bool.false_ne_true }

theorem frame_stackFor (he : kept.e = false) (k : Interrupt) (s : State) : Frame s (stackFor k s) [.s] false kept := by
  unfold stackFor
  split
  · exact (Frame.refl s).mono (by simp)
  · split
    · exact (frame_setE he _ s).seq (frame_pushShortFrame _)
    · exact (frame_setE he _ s).seq (frame_pushEntireFrame _)

/-- An entry writes S, E and the masks of its kind (R276 to R281). -/
theorem frame_raiseInterrupt {k : Interrupt} (he : kept.e = false) (hmask : ∀ cc, SameFlags kept cc (maskFor k cc)) (s : State) :
    Frame s (raiseInterrupt k s) [.s] false kept := by
  have entered : ∀ t, Frame t (enterHandler k t) [] false kept := fun t => .quiet (hmask t.cc) rfl rfl rfl rfl rfl rfl rfl rfl
  have jumped : ∀ addr t, Frame t (jumpThrough addr t) [] false kept :=
    fun addr t => (frame_readWord addr t).trans (frame_pc _ _)
  exact ((frame_stackFor he k s).seq (entered _)).seq (jumped _ _)

theorem frame_returnFromInterrupt (s : State) :
    Frame s (returnFromInterrupt s) (writesRegs .rti) false (allFlags false) := by
  have cc : Frame s (pullCC .s s) (writesRegs .rti) false (allFlags false) :=
    (frame_pullCC .s s).mono (by simp [writesRegs, spReg])
  have rest : ∀ t, Frame t (pullRest t) (writesRegs .rti) false (allFlags false) := fun t =>
    ((((((frame_pullA .s t).seq (frame_pullB .s _)).seq (frame_pullDP .s _)).seq (frame_pullX .s _)).seq
      (frame_pullY .s _)).seq (frame_pullOther .s _)).mono (by simp [writesRegs, spReg, otherSp])
  have pc : ∀ t, Frame t (pullPC .s t) (writesRegs .rti) false (allFlags false) := fun t =>
    (frame_pullPC .s t).mono (by simp [writesRegs, spReg])
  unfold returnFromInterrupt
  dsimp only
  split
  · exact (cc.trans (rest _)).trans (pc _)
  · exact cc.trans (pc _)

end Frames

/-! ## The frame of every instruction -/

/-- The instructions that leave F and I alone: SWI2 and SWI3, which write E, among them (R287). -/
def keepsMasks : Instr → Bool
  | .swi2 | .swi3 => true
  | i => !mayWriteMasks i

/-- The flags that an instruction leaves alone (R26, R287). -/
def keptFlags (i : Instr) : CC :=
  { e := !mayWriteMasks i, f := keepsMasks i, h := keepsH i, i := keepsMasks i
    n := keepsN i, z := keepsZ i, v := keepsV i, c := keepsC i }

/-- EXG keeps all flags, or replaces CC. -/
theorem keptFlags_exg (r1 r2 : Reg) : keptFlags (.exg r1 r2) = allFlags (r1 != .cc && r2 != .cc) := by
  cases r1 <;> cases r2 <;> rfl

/-- SWI sets F and I, which it need not keep (R287). -/
theorem swi_mask_keeps (cc : CC) : SameFlags (keptFlags .swi) cc (maskFor .swi cc) := by
  constructor <;> simp [keptFlags, keepsMasks, mayWriteMasks, maskFor]

theorem frame_tfr {r1 r2 : Reg} {s t : State} (h : exec (.tfr r1 r2) s = .next t) :
    Frame s t (writesRegs (.tfr r1 r2)) (loadsS (.tfr r1 r2)) (keptFlags (.tfr r1 r2)) := by
  by_cases hw : regWide r1 = regWide r2
  · rw [exec_tfr hw] at h
    cases h
    exact frame_setReg (by rintro rfl; rfl) _ s
  · rw [(exec_tfr_exg_refused hw s).1] at h
    cases h

theorem frame_exg {r1 r2 : Reg} {s t : State} (h : exec (.exg r1 r2) s = .next t) :
    Frame s t (writesRegs (.exg r1 r2)) (loadsS (.exg r1 r2)) (keptFlags (.exg r1 r2)) := by
  by_cases hw : regWide r1 = regWide r2
  · rw [exec_exg hw] at h
    cases h
    have flags : r1 = .cc ∨ r2 = .cc → keptFlags (.exg r1 r2) = allFlags false := by
      rintro (rfl | rfl) <;> simp [keptFlags_exg]
    exact ((frame_setReg (fun e => flags (.inl e)) _ s).seq (frame_setReg (fun e => flags (.inr e)) _ _)).mono
      (by simp [writesRegs])
  · rw [(exec_tfr_exg_refused hw s).2] at h
    cases h

/-- What an instruction does to the registers, to the arming of NMI and to the flags: one case for each shape and each operation
on the flags. The cases left to the end are the branches. -/
theorem exec_frame {i : Instr} {s t : State} (h : exec i s = .next t) : Frame s t (writesRegs i) (loadsS i) (keptFlags i) := by
  cases i with
  | tfr => exact frame_tfr h
  | exg => exact frame_exg h
  | adca | adcb | adda | addb => cases h; exact frame_accOperand (fun a m cc => add8_keeps a m _ cc) _ _ s
  | sbca | sbcb | suba | subb =>
    cases h; exact frame_withFreeH (fun h => frame_accOperand (fun a m cc => sub8_keeps a m _ cc h) _ _) s
  | cmpa | cmpb => cases h; exact frame_withFreeH (fun h => frame_testOperand (fun a m cc => sub8_keeps a m _ cc h) _ _) s
  | anda | andb | eora | eorb | ora | orb => cases h; exact frame_accOperand (fun _ _ cc => logic8_keeps _ cc) _ _ s
  | bita | bitb => cases h; exact frame_testOperand (fun _ _ cc => logic8_keeps _ cc) _ _ s
  | nega | negb => cases h; exact frame_withFreeH (fun h => frame_accUnary (fun m cc => neg8_keeps m h cc) _) s
  | neg => cases h; exact frame_withFreeH (fun h => frame_memUnary (fun m cc => neg8_keeps m h cc) _) s
  | asla | aslb | lsla | lslb => cases h; exact frame_withFreeH (fun h => frame_accUnary (fun m cc => asl8_keeps m h cc) _) s
  | asl | lsl => cases h; exact frame_withFreeH (fun h => frame_memUnary (fun m cc => asl8_keeps m h cc) _) s
  | asra | asrb => cases h; exact frame_withFreeH (fun h => frame_accUnary (fun m cc => asr8_keeps m h cc) _) s
  | asr => cases h; exact frame_withFreeH (fun h => frame_memUnary (fun m cc => asr8_keeps m h cc) _) s
  | inca | incb => cases h; exact frame_accUnary inc8_keeps _ s
  | inc => cases h; exact frame_memUnary inc8_keeps _ s
  | deca | decb => cases h; exact frame_accUnary dec8_keeps _ s
  | dec => cases h; exact frame_memUnary dec8_keeps _ s
  | coma | comb => cases h; exact frame_accUnary com8_keeps _ s
  | com => cases h; exact frame_memUnary com8_keeps _ s
  | clra | clrb => cases h; exact frame_accUnary (fun _ => clr8_keeps) _ s
  | clr => cases h; exact frame_memUnary (fun _ => clr8_keeps) _ s
  | lsra | lsrb => cases h; exact frame_accUnary lsr8_keeps _ s
  | lsr => cases h; exact frame_memUnary lsr8_keeps _ s
  | rola | rolb => cases h; exact frame_accUnary rol8_keeps _ s
  | rol => cases h; exact frame_memUnary rol8_keeps _ s
  | rora | rorb => cases h; exact frame_accUnary ror8_keeps _ s
  | ror => cases h; exact frame_memUnary ror8_keeps _ s
  | daa => cases h; exact frame_accUnary daa8_keeps _ s
  | tsta | tstb => cases h; exact frame_cc (setNZ8V0_keeps _ _)
  | tst => cases h; exact (frame_operand8 (.mem _) s).seq (frame_cc (setNZ8V0_keeps _ _))
  | lda | ldb => cases h; exact frame_loadAcc _ _ s
  | sta | stb => cases h; exact frame_storeAcc _ _ s
  | addd => cases h; exact frame_wordOperand add16_keeps .d _ s
  | subd => cases h; exact frame_wordOperand sub16_keeps .d _ s
  | cmpd | cmps | cmpu | cmpx | cmpy => cases h; exact frame_compareWord _ _ s
  | ldd => cases h; exact frame_loadWord .d _ s
  | lds => cases h; exact frame_loadWord .s _ s
  | ldu => cases h; exact frame_loadWord .u _ s
  | ldx => cases h; exact frame_loadWord .x _ s
  | ldy => cases h; exact frame_loadWord .y _ s
  | std | sts | stu | stx | sty => cases h; exact frame_storeWord _ _ s
  | leas => cases h; exact (frame_indexedAddress _ s).seq (frame_loadReg16 .s _ _)
  | leau => cases h; exact (frame_indexedAddress _ s).seq (frame_setIdx .u _ _)
  | leax m =>
    cases h
    exact ((frame_indexedAddress m s).seq (frame_cc (setZ_keeps ((indexedAddress m s).1 == 0) _))).seq
      (frame_setIdx .x (indexedAddress m s).1 _)
  | leay m =>
    cases h
    exact ((frame_indexedAddress m s).seq (frame_cc (setZ_keeps ((indexedAddress m s).1 == 0) _))).seq
      (frame_setIdx .y (indexedAddress m s).1 _)
  | abx => cases h; exact frame_setIdx .x _ s
  | mul =>
    cases h
    exact ((frame_cc (mul8_keeps _ _ _)).seq (frame_loadReg16 .d _ _)).mono (by simp [writesRegs, withHalves, wordReg])
  | sex => cases h; exact (frame_cc (setNZ8V0_keeps _ _)).seq (frame_setAcc .a _ _)
  | andcc | orcc => cases h; exact frame_cc (sameFlags_none _ _)
  | nop => cases h; exact .refl s
  | sync => cases h; exact frame_wait _ s
  | pshs => cases h; exact frame_pushList .s _ s
  | pshu => cases h; exact frame_pushList .u _ s
  | puls => cases h; exact frame_pullList .s _ s
  | pulu => cases h; exact frame_pullList .u _ s
  | rts => cases h; exact frame_pullPC .s s
  | rti => cases h; exact frame_returnFromInterrupt s
  | jmp => cases h; exact (frame_effectiveAddress _ s).seq (frame_pc _ _)
  | jsr => cases h; exact (frame_effectiveAddress _ s).seq (frame_callTo _ _)
  | bsr | lbsr => cases h; exact frame_callTo _ s
  | swi =>
    obtain rfl := Host.Outcome.next.inj h
    exact (frame_wait .none s).seq (frame_raiseInterrupt rfl swi_mask_keeps _)
  | swi2 | swi3 =>
    obtain rfl := Host.Outcome.next.inj h
    exact (frame_wait .none s).seq (frame_raiseInterrupt rfl (fun _ => .refl _ _) _)
  | cwai =>
    obtain rfl := Host.Outcome.next.inj h
    exact (((frame_cc (sameFlags_none _ _)).seq (frame_setE rfl true _)).seq (frame_pushEntireFrame _)).seq
      (frame_wait .cwai _)
  | _ => cases h; exact frame_branchIf _ _ s

/-! ## Who writes the registers -/

/-- Settles O52: the register part of the frame of every instruction. -/
theorem registerFrame : Obligations.RegisterFrame := fun _ _ _ r h => (exec_frame h).regs r

/-! ## Who writes the status -/

/-! Auto-increment and auto-decrement never write DP, so no operand does (R28). -/

theorem dp_not_mem_indexWritten (m : Indexed) : Reg.dp ∉ indexWritten m := by
  cases m with
  | inc1 r | inc2 r _ | dec1 r | dec2 r _ => cases r <;> simp [indexWritten]
  | off5 | noOff | off8 | off16 | accA | accB | accD | pcr8 | pcr16 | extInd => exact List.not_mem_nil

theorem dp_not_mem_operandWrites (m : MemOperand) : Reg.dp ∉ operandWrites m := by
  cases m with
  | direct | extended => exact List.not_mem_nil
  | indexed m => exact dp_not_mem_indexWritten m

theorem dp_not_mem_source8Writes (src : Src8) : Reg.dp ∉ source8Writes src := by
  cases src with
  | imm => exact List.not_mem_nil
  | mem m => exact dp_not_mem_operandWrites m

theorem dp_not_mem_source16Writes (src : Src16) : Reg.dp ∉ source16Writes src := by
  cases src with
  | imm => exact List.not_mem_nil
  | mem m => exact dp_not_mem_operandWrites m

theorem dp_mem_withHalves (r : Reg) : Reg.dp ∈ withHalves r ↔ r = .dp := by cases r <;> simp [withHalves]

theorem dp_not_mem_writesRegs {i : Instr} (h : mayWriteDp i = false) : Reg.dp ∉ writesRegs i := by
  cases i with
  | rti => cases h
  | tfr | exg => simpa [mayWriteDp, writesRegs, dp_mem_withHalves] using h
  | puls | pulu => simpa [mayWriteDp, writesRegs, listWrites] using h
  | _ =>
    simp [writesRegs, dp_not_mem_indexWritten, dp_not_mem_operandWrites, dp_not_mem_source8Writes, dp_not_mem_source16Writes]

/-- Where no flag is affected, each one is kept. -/
theorem keptFlags_of_keepsFlags {i : Instr} (h : keepsFlags i = true) : keptFlags i = allFlags true := by
  cases i with
  | tfr | puls | pulu => exact congrArg allFlags h
  | exg => exact (keptFlags_exg _ _).trans (congrArg allFlags h)
  | _ => cases h <;> rfl

/-- Settles O50: the frame of every instruction, for NMI arming, DP and the flags. -/
theorem statusFrame : Obligations.StatusFrame := by
  intro i s t h
  obtain ⟨regs, armed, flags⟩ := exec_frame h
  refine ⟨armed, fun hdp => ?_, fun hm => ?_, ?_, fun hk => ?_, flags.h, flags.n, flags.z, flags.v, flags.c⟩
  · exact zext8_injective (regs .dp (dp_not_mem_writesRegs hdp) nofun nofun)
  · have hmasks : keepsMasks i = true := by unfold keepsMasks; split <;> simp [hm]
    exact ⟨flags.e (by simp [keptFlags, hm]), flags.f hmasks, flags.i hmasks⟩
  · rintro (rfl | rfl) <;> exact ⟨flags.f rfl, flags.i rfl⟩
  · rw [keptFlags_of_keepsFlags hk] at flags
    exact flags.eq_of_all

end Sys2Proof.Machine
end

section
/-! PROOFS of 20_memory: every step keeps the relations of `Inv`. -/

namespace Sys2Proof.Machine

/-! ## The shapes of the instructions keep the invariant -/

section Shapes
variable {s : State}

theorem setCC_inv {cc : CC} (h : Inv s) : Inv { s with cc } := h.of_eq rfl rfl rfl rfl

theorem setPC_inv {pc : Word} (h : Inv s) : Inv { s with pc } := h.of_eq rfl rfl rfl rfl

theorem setWait_inv {wait : Wait} (h : Inv s) : Inv { s with wait } := h.of_eq rfl rfl rfl rfl

theorem accOperand_inv {r : Acc} {f : Byte → Byte → CC → Byte × CC} {src : Src8} (h : Inv s) :
    Inv (accOperand r f src s) :=
  setAcc_inv (setCC_inv (operand8_inv h))

theorem testOperand_inv {r : Acc} {f : Byte → Byte → CC → Byte × CC} {src : Src8} (h : Inv s) :
    Inv (testOperand r f src s) :=
  setCC_inv (operand8_inv h)

theorem accUnary_inv {r : Acc} {f : Byte → CC → Byte × CC} (h : Inv s) : Inv (accUnary r f s) := setAcc_inv (setCC_inv h)

theorem memUnary_inv {f : Byte → CC → Byte × CC} {m : MemOperand} (h : Inv s) : Inv (memUnary f m s) :=
  writeByte_inv (setCC_inv (readByte_inv (effectiveAddress_inv h)))

theorem withFreeH_inv {op : Bool → State → State} (hop : ∀ b {t}, Inv t → Inv (op b t)) (h : Inv s) : Inv (withFreeH op s) :=
  hop _ (drawBit_inv h)

theorem loadAcc_inv {r : Acc} {src : Src8} (h : Inv s) : Inv (loadAcc r src s) := setAcc_inv (setCC_inv (operand8_inv h))

theorem storeAcc_inv {r : Acc} {m : MemOperand} (h : Inv s) : Inv (storeAcc r m s) :=
  writeByte_inv (setCC_inv (effectiveAddress_inv h))

theorem wordOperand_inv {r : Reg16} {f : Word → Word → CC → Word × CC} {src : Src16} (h : Inv s) :
    Inv (wordOperand r f src s) := loadReg16_inv (setCC_inv (operand16_inv h))

theorem compareWord_inv {r : Reg16} {src : Src16} (h : Inv s) : Inv (compareWord r src s) := setCC_inv (operand16_inv h)

theorem loadWord_inv {r : Reg16} {src : Src16} (h : Inv s) : Inv (loadWord r src s) :=
  loadReg16_inv (setCC_inv (operand16_inv h))

theorem storeWord_inv {r : Reg16} {m : MemOperand} (h : Inv s) : Inv (storeWord r m s) :=
  writeWord_inv (setCC_inv (effectiveAddress_inv h))

theorem branchIf_inv {c : Cond} {off : Word} (h : Inv s) : Inv (branchIf c off s) := by
  unfold branchIf
  split
  · exact setPC_inv h
  · exact h

theorem callTo_inv {target : Word} (h : Inv s) : Inv (callTo target s) := setPC_inv (push16_inv h)

end Shapes

/-! ## Instructions, boundaries and steps -/

/-- TFR and EXG complete only between registers of one width, and are then one write of a register and two. -/
theorem exec_transfer_next {r1 r2 : Reg} {s t : State} (he : exec (.tfr r1 r2) s = .next t ∨ exec (.exg r1 r2) s = .next t) :
    ∃ v, t = setReg r2 v s ∨ ∃ w, t = setReg r2 v (setReg r1 w s) := by
  by_cases hw : regWide r1 = regWide r2
  · rw [exec_tfr hw, exec_exg hw] at he
    rcases he with he | he <;> cases he
    · exact ⟨_, .inl rfl⟩
    · exact ⟨_, .inr ⟨_, rfl⟩⟩
  · rw [(exec_tfr_exg_refused hw s).1, (exec_tfr_exg_refused hw s).2] at he
    rcases he with he | he <;> cases he

theorem exec_transfer_inv {r1 r2 : Reg} {s t : State} (h : Inv s)
    (he : exec (.tfr r1 r2) s = .next t ∨ exec (.exg r1 r2) s = .next t) : Inv t := by
  obtain ⟨v, rfl | ⟨w, rfl⟩⟩ := exec_transfer_next he
  · exact setReg_inv h
  · exact setReg_inv (setReg_inv h)

/-- An instruction that completes keeps the invariant: one case for each shape. The cases left to the end are the branches. -/
theorem exec_inv {i : Instr} {s t : State} (h : Inv s) (he : exec i s = .next t) : Inv t := by
  cases i with
  | tfr => exact exec_transfer_inv h (.inl he)
  | exg => exact exec_transfer_inv h (.inr he)
  | adca | adcb | adda | addb | anda | andb | eora | eorb | ora | orb => cases he; exact accOperand_inv h
  | sbca | sbcb | suba | subb => cases he; exact withFreeH_inv (fun _ => accOperand_inv) h
  | bita | bitb => cases he; exact testOperand_inv h
  | cmpa | cmpb => cases he; exact withFreeH_inv (fun _ => testOperand_inv) h
  | clra | clrb | coma | comb | daa | deca | decb | inca | incb | lsra | lsrb | rola | rolb | rora | rorb =>
    cases he; exact accUnary_inv h
  | asla | aslb | asra | asrb | lsla | lslb | nega | negb => cases he; exact withFreeH_inv (fun _ => accUnary_inv) h
  | clr | com | dec | inc | lsr | rol | ror => cases he; exact memUnary_inv h
  | asl | asr | lsl | neg => cases he; exact withFreeH_inv (fun _ => memUnary_inv) h
  | addd | subd => cases he; exact wordOperand_inv h
  | cmpd | cmps | cmpu | cmpx | cmpy => cases he; exact compareWord_inv h
  | lda | ldb => cases he; exact loadAcc_inv h
  | ldd | lds | ldu | ldx | ldy => cases he; exact loadWord_inv h
  | sta | stb => cases he; exact storeAcc_inv h
  | std | sts | stu | stx | sty => cases he; exact storeWord_inv h
  | leas m => cases he; exact loadS_inv (indexedAddress_inv h)
  | leau m | leax m | leay m => cases he; exact (indexedAddress_inv (m := m) h).of_eq rfl rfl rfl rfl
  | abx | mul | sex | tsta | tstb | andcc | orcc | nop | sync => cases he; exact h.of_eq rfl rfl rfl rfl
  | tst => cases he; exact setCC_inv (operand8_inv h)
  | pshs | pshu => cases he; exact pushList_inv h
  | puls | pulu => cases he; exact pullList_inv h
  | jmp => cases he; exact setPC_inv (effectiveAddress_inv h)
  | jsr => cases he; exact callTo_inv (effectiveAddress_inv h)
  | bsr | lbsr => cases he; exact callTo_inv h
  | rts => cases he; exact pullPC_inv h
  | rti => cases he; exact returnFromInterrupt_inv h
  | swi | swi2 | swi3 => obtain rfl := Host.Outcome.next.inj he; exact raiseInterrupt_inv (setWait_inv h)
  | cwai =>
    obtain rfl := Host.Outcome.next.inj he
    exact setWait_inv (pushEntireFrame_inv (setCC_inv (setCC_inv h)))
  | _ => cases he; exact branchIf_inv h

/-- What a boundary leads to meets a predicate: the state the step ends in, or the one an instruction starts from. -/
def Action.Leaves (P : State → Prop) : Action → Prop
  | .become t => P t
  | .run _ t => P t
  | .refuse _ => True

theorem fetchAction_inv {s : State} (h : Inv s) : (fetchAction s).Leaves Inv := by
  have hf : Inv (fetch s).2 := fetchMore_inv h
  unfold fetchAction
  split
  next heq => rw [heq] at hf; exact hf
  next => trivial
  next => trivial

theorem boundaryAction_inv {s : State} (h : Inv s) : (boundaryAction s).Leaves Inv := by
  unfold boundaryAction
  split
  · exact raiseInterrupt_inv h
  · split
    · exact fetchAction_inv h
    · dsimp only [Action.Leaves]
      split
      · exact setWait_inv h
      · exact h
    · exact h

theorem nextAction_inv {s : State} (h : Inv s) : (nextAction s).Leaves Inv := by
  unfold nextAction
  split
  · exact boundaryAction_inv h
  · dsimp only
    split
    · exact resetEntry_inv (takeInput_inv h)
    · exact boundaryAction_inv (takeInput_inv h)

theorem carryOut_inv {s t : State} (h : Inv s) (hc : carryOut s = .next t) : Inv t := by
  have hn := nextAction_inv h
  unfold carryOut at hc
  split at hc
  next heq => rw [heq] at hn; cases hc; exact hn
  next heq => rw [heq] at hn; exact exec_inv hn hc
  next => cases hc

/-- A step that ends in a next state has carried out what its boundary starts, and finished it. -/
theorem step_next {s t : State} (h : step s = .next t) : ∃ u, carryOut s = .next u ∧ t = finishStep s u := by
  unfold step at h
  split at h
  next u hu => cases h; exact ⟨u, hu, rfl⟩
  next => cases h
  next => cases h

/-- Settles O48: the boundary, the instruction and the end of the step each keep the invariant. -/
theorem stepKeepsInvariant : Obligations.StepKeepsInvariant := by
  intro s t h hs
  obtain ⟨u, hu, rfl⟩ := step_next hs
  exact finishStep_inv h (carryOut_inv h hu)

end Sys2Proof.Machine
end

section
/-! PROOFS of 20_memory: the device addresses, the bus, effective addresses and operands. -/

namespace Sys2Proof.Machine

/-! ## The device addresses -/

/-- The addresses of R50 that no device has: below the devices, in the gaps between them, and above them. -/
theorem deviceAt_eq_none {a : Word} (h : a.toNat < 0xF000 ∨ (0xF003 < a.toNat ∧ a.toNat < 0xF010) ∨ a.toNat = 0xF017 ∨
    0xF02F < a.toNat) : deviceAt a = none := by
  by_cases hlow : a.toNat < 0xF000
  · exact if_pos hlow
  · simp (disch := omega) only [deviceAt, if_neg, dif_neg]

/-- Settles O15: the registers' addresses one by one, and the rest of the address space. -/
theorem deviceAddresses : Obligations.DeviceAddresses := by
  refine ⟨rfl, rfl, rfl, rfl, by decide, rfl, rfl, rfl, rfl, rfl, rfl, rfl, rfl, by decide, fun a h => deviceAt_eq_none ?_⟩
  simpa [BitVec.lt_def, ← BitVec.toNat_inj] using h

/-! ## Bytes and words -/

theorem loByte_eq_setWidth (v : Word) : loByte v = v.setWidth 8 := (BitVec.setWidth_eq_extractLsb' (by decide)).symm

theorem hiByte_eq_setWidth (v : Word) : hiByte v = (v >>> 8).setWidth 8 := BitVec.setWidth_ushiftRight_eq_extractLsb.symm

theorem toNat_catBytes (h l : Byte) : (catBytes h l).toNat = 256 * h.toNat + l.toNat := by
  rw [catBytes, BitVec.toNat_append, ← Nat.shiftLeft_add_eq_or_of_lt l.isLt, Nat.shiftLeft_eq, Nat.mul_comm]

/-! ## The bus -/

/-- What answers an access depends on MEM_MAP only, so whether it is RAM or ROM does. -/
theorem plain_congr {s t : State} {addr : Word} (h : t.memMap = s.memMap) : Plain addr t ↔ Plain addr s := by
  simp only [Plain, busTarget_congr addr h]

theorem ram_congr {s t : State} {addr : Word} (h : t.memMap = s.memMap) : Ram addr t ↔ Ram addr s := by
  simp only [Ram, busTarget_congr addr h]

theorem cellWord_congr {s t : State} (addr : Word) (hm : t.mem = s.mem) (h : t.memMap = s.memMap) :
    cellWord addr t = cellWord addr s := by
  simp only [cellWord, cellByte_congr _ hm h]

/-- A word read in RAM or ROM is the word held there, and nothing changes. -/
theorem readWord_cell {addr : Word} {s : State} (h : Plain addr s) (h' : Plain (addr + 1) s) :
    readWord addr s = (cellWord addr s, s) := by
  simp only [readWord, readByte_cell h, readByte_cell h', cellWord]

/-- A read and a write at a device's address: the device does what it does of its own, then answers (R49). -/
theorem readByte_device {addr : Word} {d : DeviceReg} (h : deviceAt addr = some d) (s : State) :
    readByte addr s = readDevice d (letDevicesMove s) := by
  simp only [readByte, busTarget, h]

theorem writeByte_device {addr : Word} {d : DeviceReg} (h : deviceAt addr = some d) (v : Byte) (s : State) :
    writeByte addr v s = writeDevice d v (letDevicesMove s) := by
  simp only [writeByte, busTarget, h]

/-- The next entry of the devices' schedule. -/
theorem letDevicesMove_cons {s : State} {events : List DeviceEvent} {rest : List (List DeviceEvent)}
    (h : s.between = events :: rest) :
    letDevicesMove s = applyEvents events { s with between := rest } := by
  simp only [letDevicesMove, h]

/-- A store to ROM or to an unpopulated address is lost (R59). -/
theorem writeByte_ignored {addr : Word} {s : State} (v : Byte)
    (h : busTarget addr s = .memory .rom ∨ busTarget addr s = .memory .unpopulated) : writeByte addr v s = s := by
  rcases h with h | h <;> simp only [writeByte, h]

/-- What a word stored in RAM leaves at its two addresses, which differ also where they wrap. -/
theorem cellByte_writeWord {addr : Word} {s : State} (v : Word) (h : Ram addr s) (h' : Ram (addr + 1) s) :
    cellByte addr (writeWord addr v s) = hiByte v ∧ cellByte (addr + 1) (writeWord addr v s) = loByte v := by
  have hne : addr ≠ addr + 1 := by bv_omega
  have h1 : busTarget (addr + 1) (writeByte addr (hiByte v) s) = .memory .ram := (busTarget_writeByte _ _ _ s).trans h'
  exact ⟨by rw [writeWord, cellByte_writeByte_other _ _ hne, cellByte_writeByte_same _ h], cellByte_writeByte_same _ h1⟩

theorem cellWord_writeWord {addr : Word} {s : State} (v : Word) (h : Ram addr s) (h' : Ram (addr + 1) s) :
    cellWord addr (writeWord addr v s) = v := by
  obtain ⟨hhi, hlo⟩ := cellByte_writeWord v h h'
  rw [cellWord, hhi, hlo, catBytes_hi_lo]

/-- Settles O14: an access by what answers it, and a word as its two bytes. -/
theorem busReadsAndWrites : Obligations.BusReadsAndWrites := by
  refine ⟨fun addr v s => ⟨fun hram => ⟨?_, fun a ha => cellByte_writeByte_other v s ha, _, writeByte_ram v hram⟩,
    writeByte_ignored v, fun hfree => ?_, readByte_cell, fun d events rest hd => ⟨fun hnone => ?_, fun hcons => ?_⟩⟩,
    fun addr v s => ⟨toNat_catBytes _ _, rfl, ?_, rfl, fun hram hram' => ?_⟩⟩
  · have hplain : Plain addr (writeByte addr v s) := (plain_congr (writeByte_memMap addr v s)).mpr (.inl hram)
    rw [readByte_cell hplain, cellByte_writeByte_same v hram]
  · simp only [readByte, hfree, drawByte, nextDraw]
  · rw [readByte_device hd, writeByte_device hd, letDevicesMove_none hnone]
    exact ⟨rfl, rfl⟩
  · rw [readByte_device hd, writeByte_device hd, letDevicesMove_cons hcons]
    exact ⟨rfl, rfl⟩
  · rw [writeWord, hiByte_eq_setWidth, loByte_eq_setWidth]
  · obtain ⟨hhi, hlo⟩ := cellByte_writeWord v hram hram'
    have hmap : (writeWord addr v s).memMap = s.memMap := writeWord_memMap addr v s
    refine ⟨hhi.trans (hiByte_eq_setWidth v), hlo.trans (loByte_eq_setWidth v), ?_⟩
    rw [readWord_cell ((plain_congr hmap).mpr (.inl hram)) ((plain_congr hmap).mpr (.inl hram')), cellWord_writeWord v hram hram']

/-! ## Effective addresses -/

theorem indexedAddress_direct {m : Indexed} (h : isIndirect m = false) (s : State) : indexedAddress m s = indexedBase m s := by
  simp [indexedAddress, h]

theorem indexedAddress_indirect {m : Indexed} (h : isIndirect m = true) (s : State) :
    indexedAddress m s = readWord (indexedBase m s).1 (indexedBase m s).2 := by
  simp [indexedAddress, h]

/-- Settles O12: the pointer's address is the direct form's, and lies in the same memory after the form's effect on its register. -/
theorem indirectAddresses : Obligations.IndirectAddresses := by
  refine ⟨fun _ _ => rfl, fun direct indirect s hforms => ?_⟩
  have hpair : isIndirect direct = false ∧ isIndirect indirect = true ∧
      indexedBase indirect s = indexedBase direct s := by
    rcases hforms with ⟨r, rfl, rfl⟩ | ⟨r, n, rfl, rfl⟩ | ⟨r, n, rfl, rfl⟩ | ⟨r, rfl, rfl⟩ | ⟨r, rfl, rfl⟩ | ⟨r, rfl, rfl⟩ |
      ⟨r, rfl, rfl⟩ | ⟨r, rfl, rfl⟩ | ⟨n, rfl, rfl⟩ | ⟨n, rfl, rfl⟩ <;> exact ⟨rfl, rfl, rfl⟩
  obtain ⟨hd, hi, hbase⟩ := hpair
  rw [indexedAddress_direct hd, indexedAddress_indirect hi, hbase]
  have hmap : (indexedBase direct s).2.memMap = s.memMap := indexedBase_memMap direct s
  refine ⟨rfl, fun hp hp' => ?_⟩
  rw [readWord_cell ((plain_congr hmap).mpr hp) ((plain_congr hmap).mpr hp'),
    cellWord_congr _ (indexedBase_mem direct s) hmap, cellWord]

/-! ## The frame of an operand -/

/-- From a state to another the devices and the count of free values change at most, the devices only where a byte read is at a
device's address, the count only where one is not in RAM or ROM. -/
structure ReadsAt (reads : List Word) (s t : State) : Prop where
  fields : ∃ pia ptm keys between draws, t = { s with pia, ptm, keys, between, draws }
  devices : (∀ a ∈ reads, deviceAt a = none) → t.pia = s.pia ∧ t.ptm = s.ptm ∧ t.keys = s.keys ∧ t.between = s.between
  plain : (∀ a ∈ reads, Plain a s) → t = s

theorem ReadsAt.refl (s : State) : ReadsAt [] s s := ⟨⟨_, _, _, _, _, rfl⟩, fun _ => ⟨rfl, rfl, rfl, rfl⟩, fun _ => rfl⟩

theorem ReadsAt.memMap {reads : List Word} {s t : State} (h : ReadsAt reads s t) : t.memMap = s.memMap := by
  obtain ⟨_, _, _, _, _, rfl⟩ := h.fields
  rfl

theorem ReadsAt.trans {first second : List Word} {s t u : State} (h : ReadsAt first s t) (h' : ReadsAt second t u) :
    ReadsAt (first ++ second) s u where
  fields := by
    obtain ⟨_, _, _, _, _, rfl⟩ := h.fields
    obtain ⟨_, _, _, _, _, rfl⟩ := h'.fields
    exact ⟨_, _, _, _, _, rfl⟩
  devices hnone := by
    rw [List.forall_mem_append] at hnone
    obtain ⟨hpia, hptm, hkeys, hbetween⟩ := h.devices hnone.1
    obtain ⟨hpia', hptm', hkeys', hbetween'⟩ := h'.devices hnone.2
    exact ⟨hpia'.trans hpia, hptm'.trans hptm, hkeys'.trans hkeys, hbetween'.trans hbetween⟩
  plain hplain := by
    rw [List.forall_mem_append] at hplain
    rw [h'.plain fun a ha => (plain_congr h.memMap).mpr (hplain.2 a ha), h.plain hplain.1]

theorem readsAt_readByte (addr : Word) (s : State) : ReadsAt [addr] s (readByte addr s).2 where
  fields := ⟨_, _, _, _, _, readByte_frame addr s⟩
  devices hnone := by
    simp only [readByte, busTarget, hnone addr (List.mem_singleton_self addr)]
    split <;> simp_all [drawByte]
  plain hplain := by rw [readByte_cell (hplain addr (List.mem_singleton_self addr))]

theorem readsAt_readWord (addr : Word) (s : State) : ReadsAt [addr, addr + 1] s (readWord addr s).2 :=
  (readsAt_readByte addr s).trans (readsAt_readByte (addr + 1) _)

theorem indexedBase_snd (m : Indexed) (s : State) : (indexedBase m s).2 = indexUpdate m s := by cases m <;> rfl

/-- Computing an address steps the index register of an auto-increment or auto-decrement and reads the pointer (R75 to R77). -/
theorem readsAt_effectiveAddress (m : MemOperand) (s : State) :
    ReadsAt (pointerReads m s) (operandUpdate m s) (effectiveAddress m s).2 := by
  cases m with
  | direct | extended => exact .refl s
  | indexed x =>
    simp only [pointerReads, operandUpdate, effectiveAddress, ← indexedBase_snd]
    cases hx : isIndirect x with
    | false => rw [indexedAddress_direct hx]; exact .refl _
    | true => rw [indexedAddress_indirect hx]; exact readsAt_readWord _ _

/-- An operand leaves the devices, their schedule and MEM_MAP to its reads. -/
theorem operandUpdate_frame (m : MemOperand) (s : State) :
    (operandUpdate m s).pia = s.pia ∧ (operandUpdate m s).ptm = s.ptm ∧ (operandUpdate m s).keys = s.keys ∧
      (operandUpdate m s).between = s.between ∧ (operandUpdate m s).memMap = s.memMap := by
  cases m with
  | direct | extended => exact ⟨rfl, rfl, rfl, rfl, rfl⟩
  | indexed x => simp [operandUpdate, ← indexedBase_snd]

/-- Settles O13: what is fetched is read after the operand's own step of an index register. -/
theorem operandFrame : Obligations.OperandFrame := by
  refine ⟨fun _ _ => rfl, fun _ _ => rfl, fun m s => ?_⟩
  intro u ea fetched
  obtain ⟨hpia, hptm, hkeys, hbetween, hmap⟩ := operandUpdate_frame m s
  have fetched_of : ∀ {reads t}, ReadsAt (pointerReads m s ++ reads) u t → fetched reads t := fun h =>
    ⟨h.fields, fun hnone => by simpa only [u, hpia, hptm, hkeys, hbetween] using h.devices hnone,
      fun hplain => h.plain fun a ha => (plain_congr hmap).mpr (hplain a ha)⟩
  have haddr := readsAt_effectiveAddress m s
  exact ⟨fetched_of (haddr.trans (readsAt_readByte _ _)), fetched_of (haddr.trans (readsAt_readWord _ _))⟩

end Sys2Proof.Machine
end

section
/-! PROOFS of 20_memory: the stacks, one push or pull at a time and many bytes at once, and the calls. -/

namespace Sys2Proof.Machine

/-! ## One push, one pull -/

theorem setSp_setSp (p : StackPtr) (v w : Word) (s : State) : setSp p v (setSp p w s) = setSp p v s := by cases p <;> rfl

theorem setSp_getSp (p : StackPtr) (s : State) : setSp p (getSp p s) s = s := by cases p <;> rfl

/-- A push into RAM moves the pointer and stores the byte. -/
theorem push8_ram {p : StackPtr} {s : State} (v : Byte) (h : Ram (getSp p s - 1) s) :
    push8 p v s = { setSp p (getSp p s - 1) s with mem := s.mem.put (getSp p s - 1).toNat v } := by
  have hram : busTarget (getSp p s - 1) (setSp p (getSp p s - 1) s) = .memory .ram := (busTarget_setSp _ p _ s).trans h
  rw [push8, writeByte_ram v hram, setSp_mem]

theorem cellByte_setSp (a : Word) (p : StackPtr) (v : Word) (s : State) : cellByte a (setSp p v s) = cellByte a s :=
  cellByte_congr a (setSp_mem p v s) (setSp_memMap p v s)

theorem cellByte_push8_same {p : StackPtr} {s : State} (v : Byte) (h : Ram (getSp p s - 1) s) :
    cellByte (getSp p s - 1) (push8 p v s) = v :=
  cellByte_writeByte_same v ((busTarget_setSp _ p _ s).trans h)

theorem cellByte_push8_other {p : StackPtr} {s : State} {a : Word} (v : Byte) (h : a ≠ getSp p s - 1) :
    cellByte a (push8 p v s) = cellByte a s :=
  (cellByte_writeByte_other v _ h).trans (cellByte_setSp a p _ s)

/-- A pull from RAM or ROM answers the byte at the pointer and moves the pointer. -/
theorem pull8_cell {p : StackPtr} {s : State} (h : Plain (getSp p s) s) :
    pull8 p s = (cellByte (getSp p s) s, setSp p (getSp p s + 1) s) := by
  simp only [pull8, readByte_cell h]

/-- A pulled word is the one at the pointer (R47). -/
theorem pull16_cell {p : StackPtr} {s : State} (h : Plain (getSp p s) s) (h' : Plain (getSp p s + 1) s) :
    pull16 p s = (cellWord (getSp p s) s, setSp p (getSp p s + 2) s) := by
  have hsecond : Plain (getSp p (setSp p (getSp p s + 1) s)) (setSp p (getSp p s + 1) s) := by
    rw [getSp_setSp]
    exact (plain_congr (setSp_memMap p _ s)).mpr h'
  simp only [pull16, pull8_cell h, pull8_cell hsecond, getSp_setSp, setSp_setSp, cellByte_setSp, cellWord, BitVec.add_assoc]
  rfl

/-! ## Bytes in memory order -/

/-- A word's bytes in memory order (R43). -/
def wordBytes (v : Word) : List Byte := [hiByte v, loByte v]

/-- Bytes lie in memory from an address upward. -/
def HeldAt (addr : Word) (bytes : List Byte) (s : State) : Prop :=
  ∀ i b, bytes[i]? = some b → cellByte (addr + BitVec.ofNat 16 i) s = b

theorem sub_ofNat_succ (w : Word) (n : Nat) : w - BitVec.ofNat 16 (n + 1) = w - BitVec.ofNat 16 n - 1 := by
  rw [BitVec.ofNat_add, BitVec.sub_sub]
  rfl

theorem add_ofNat_add (w : Word) (m n : Nat) : w + BitVec.ofNat 16 (m + n) = w + BitVec.ofNat 16 m + BitVec.ofNat 16 n := by
  rw [BitVec.ofNat_add, BitVec.add_assoc]

section Held
variable {addr : Word} {s : State}

theorem HeldAt.byte {b : Byte} (h : HeldAt addr [b] s) : cellByte addr s = b := by simpa using h 0 b rfl

theorem HeldAt.word {v : Word} (h : HeldAt addr (wordBytes v) s) : cellWord addr s = v := by
  have hhi := h 0 (hiByte v) rfl
  have hlo := h 1 (loByte v) rfl
  rw [BitVec.add_zero] at hhi
  exact (congrArg₂ catBytes hhi hlo).trans (catBytes_hi_lo v)

/-- A part of bytes lies behind what stands before it. -/
theorem HeldAt.part {before bytes behind : List Byte} (h : HeldAt addr (before ++ (bytes ++ behind)) s) :
    HeldAt (addr + BitVec.ofNat 16 before.length) bytes s := by
  intro i b hb
  have hi : i < bytes.length := (List.getElem?_eq_some_iff.mp hb).1
  rw [← add_ofNat_add]
  refine h _ b ?_
  rw [List.getElem?_append_right (Nat.le_add_right _ i), Nat.add_sub_cancel_left, List.getElem?_append_left hi, hb]

end Held

/-! ## Bytes pushed one after another -/

/-- Bytes pushed one by one, the last one first, so that they lie in their order from the pointer upward (R46). -/
def pushBytes (p : StackPtr) (bytes : List Byte) (s : State) : State := bytes.foldr (push8 p) s

theorem push8_eq_pushBytes (p : StackPtr) (v : Byte) (s : State) : push8 p v s = pushBytes p [v] s := rfl

theorem push16_eq_pushBytes (p : StackPtr) (v : Word) (s : State) : push16 p v s = pushBytes p (wordBytes v) s := rfl

theorem pushBytes_cons (p : StackPtr) (b : Byte) (bytes : List Byte) (s : State) :
    pushBytes p (b :: bytes) s = push8 p b (pushBytes p bytes s) := rfl

theorem pushBytes_append (p : StackPtr) (xs ys : List Byte) (s : State) :
    pushBytes p (xs ++ ys) s = pushBytes p xs (pushBytes p ys s) := List.foldr_append

@[simp] theorem pushBytes_memMap (p : StackPtr) (bytes : List Byte) (s : State) : (pushBytes p bytes s).memMap = s.memMap := by
  induction bytes with
  | nil => rfl
  | cons b bytes ih => rw [pushBytes_cons, push8_memMap, ih]

/-- The pointer moves down by the number of bytes (R46). -/
@[simp] theorem getSp_pushBytes (p : StackPtr) (bytes : List Byte) (s : State) :
    getSp p (pushBytes p bytes s) = getSp p s - BitVec.ofNat 16 bytes.length := by
  induction bytes with
  | nil => exact (BitVec.sub_zero _).symm
  | cons b bytes ih => rw [pushBytes_cons, getSp_push8, ih, List.length_cons, sub_ofNat_succ]

theorem mem_below {a sp : Word} {n : Nat} : a ∈ below sp n ↔ ∃ k, 1 ≤ k ∧ k ≤ n ∧ a = sp - BitVec.ofNat 16 k := by
  simp only [below, List.mem_map, List.mem_range]
  constructor
  · rintro ⟨k, hk, rfl⟩
    exact ⟨k + 1, Nat.le_add_left 1 k, hk, rfl⟩
  · rintro ⟨k, h1, hk, rfl⟩
    exact ⟨k - 1, by omega, by rw [Nat.sub_add_cancel h1]⟩

/-- A push stores at the bytes below the pointer and at no other. -/
theorem cellByte_pushBytes_other {p : StackPtr} {bytes : List Byte} {s : State} {a : Word}
    (h : a ∉ below (getSp p s) bytes.length) : cellByte a (pushBytes p bytes s) = cellByte a s := by
  induction bytes with
  | nil => rfl
  | cons b bytes ih =>
    have hrest : a ∉ below (getSp p s) bytes.length := by
      rw [mem_below] at h ⊢
      rintro ⟨k, h1, hk, ha⟩
      exact h ⟨k, h1, Nat.le_succ_of_le hk, ha⟩
    have hne : a ≠ getSp p (pushBytes p bytes s) - 1 := by
      rw [getSp_pushBytes, ← sub_ofNat_succ]
      exact fun ha => h (mem_below.mpr ⟨_, Nat.le_add_left 1 _, le_rfl, ha⟩)
    rw [pushBytes_cons, cellByte_push8_other b hne, ih hrest]

theorem RoomBelow.mono {m n : Nat} {p : StackPtr} {s : State} (h : RoomBelow n p s) (hmn : m ≤ n) : RoomBelow m p s :=
  fun k h1 hk => h k h1 (hk.trans hmn)

/-- The byte that the next push stores lies in the room too. -/
theorem ram_next {p : StackPtr} {bytes : List Byte} {s : State} (h : RoomBelow (bytes.length + 1) p s) :
    Ram (getSp p (pushBytes p bytes s) - 1) (pushBytes p bytes s) := by
  rw [getSp_pushBytes, ← sub_ofNat_succ]
  exact (ram_congr (pushBytes_memMap p bytes s)).mpr (h _ (Nat.le_add_left 1 _) le_rfl)

/-- Pushes into RAM change the pointer and memory only. -/
theorem pushBytes_ram {p : StackPtr} {bytes : List Byte} {s : State} (h : RoomBelow bytes.length p s) :
    ∃ mem, pushBytes p bytes s = { setSp p (getSp p s - BitVec.ofNat 16 bytes.length) s with mem } := by
  induction bytes with
  | nil => exact ⟨s.mem, by cases p <;> simp [pushBytes, setSp, getSp]⟩
  | cons b bytes ih =>
    obtain ⟨mem, hmem⟩ := ih (h.mono (Nat.le_succ _))
    refine ⟨mem.put (getSp p s - BitVec.ofNat 16 (bytes.length + 1)).toNat b, ?_⟩
    rw [pushBytes_cons, push8_ram b (ram_next h), getSp_pushBytes, ← sub_ofNat_succ, hmem]
    cases p <;> rfl

/-- From the pointer upward lie the bytes pushed into RAM, in their order. -/
theorem heldAt_pushBytes {p : StackPtr} {bytes : List Byte} {s : State} (h : RoomBelow bytes.length p s)
    (hlen : bytes.length < 65536) : HeldAt (getSp p (pushBytes p bytes s)) bytes (pushBytes p bytes s) := by
  induction bytes with
  | nil => exact fun i b hb => by simp at hb
  | cons c bytes ih =>
    intro i b hb
    rw [pushBytes_cons, getSp_push8]
    cases i with
    | zero =>
      obtain rfl : c = b := by simpa using hb
      rw [BitVec.add_zero, cellByte_push8_same c (ram_next h)]
    | succ i =>
      rw [List.getElem?_cons_succ] at hb
      rw [List.length_cons] at hlen
      have hi : i < bytes.length := (List.getElem?_eq_some_iff.mp hb).1
      have haddr : getSp p (pushBytes p bytes s) - 1 + BitVec.ofNat 16 (i + 1) =
          getSp p (pushBytes p bytes s) + BitVec.ofNat 16 i := by
        bv_omega
      have hne : getSp p (pushBytes p bytes s) + BitVec.ofNat 16 i ≠ getSp p (pushBytes p bytes s) - 1 := by
        bv_omega
      rw [haddr, cellByte_push8_other c hne, ih (h.mono (Nat.le_succ _)) (Nat.lt_of_succ_lt hlen) i b hb]

/-! ## A word pushed -/

/-- A word pushed into RAM lies at the pointer. -/
theorem heldAt_push16 {p : StackPtr} {s : State} (v : Word) (h : RoomBelow 2 p s) :
    HeldAt (getSp p s - 2) (wordBytes v) (push16 p v s) := by
  rw [← getSp_push16 p v s]
  exact heldAt_pushBytes (bytes := wordBytes v) h (by simp [wordBytes])

theorem cellByte_push16 {p : StackPtr} {s : State} (v : Word) (h : RoomBelow 2 p s) :
    cellByte (getSp p s - 2) (push16 p v s) = hiByte v ∧ cellByte (getSp p s - 1) (push16 p v s) = loByte v := by
  have hlow : getSp p s - 2 + BitVec.ofNat 16 1 = getSp p s - 1 := by bv_omega
  exact ⟨by simpa using heldAt_push16 v h 0 _ rfl, hlow ▸ heldAt_push16 v h 1 _ rfl⟩

theorem cellWord_push16 {p : StackPtr} {s : State} (v : Word) (h : RoomBelow 2 p s) :
    cellWord (getSp p s - 2) (push16 p v s) = v := (heldAt_push16 v h).word

/-- Settles O16: a pull of the word that was pushed finds it at the pointer. -/
theorem pushAndPull : Obligations.PushAndPull := by
  refine fun p s => ⟨fun _ => rfl, fun v => ?_, rfl, getSp_pull8 p s, pull8_mem p s, fun v hroom => ?_⟩
  · rw [push16, hiByte_eq_setWidth, loByte_eq_setWidth]
  · obtain ⟨hhi, hlo⟩ := cellByte_push16 v hroom
    obtain ⟨mem, hmem⟩ := pushBytes_ram (bytes := wordBytes v) hroom
    have hmap : (push16 p v s).memMap = s.memMap := push16_memMap p v s
    have hsp := getSp_push16 p v s
    have hnext : getSp p s - 2 + 1 = getSp p s - 1 := by bv_omega
    have hplain : Plain (getSp p (push16 p v s)) (push16 p v s) := by
      rw [hsp, plain_congr hmap]
      exact .inl (hroom 2 (by decide) le_rfl)
    have hplain' : Plain (getSp p (push16 p v s) + 1) (push16 p v s) := by
      rw [hsp, hnext, plain_congr hmap]
      exact .inl (hroom 1 le_rfl (by decide))
    refine ⟨hsp, hhi.trans (hiByte_eq_setWidth v), hlo.trans (loByte_eq_setWidth v), fun a h1 h2 => ?_, ?_⟩
    · refine cellByte_pushBytes_other (bytes := wordBytes v) fun ha => ?_
      obtain ⟨k, hk1, hk, rfl⟩ := mem_below.mp ha
      obtain rfl | rfl : k = 1 ∨ k = 2 := by have : (wordBytes v).length = 2 := rfl; omega
      · exact h1 rfl
      · exact h2 rfl
    · rw [pull16_cell hplain hplain', hsp, cellWord_push16 v hroom, BitVec.sub_add_cancel, push16_eq_pushBytes, hmem]
      cases p <;> rfl

/-! ## Calls -/

theorem rts_cell {s : State} (h : Plain s.s s) (h' : Plain (s.s + 1) s) :
    exec .rts s = .next { s with pc := cellWord s.s s, s := s.s + 2 } := by
  have hpull : pull16 .s s = (cellWord s.s s, setSp .s (s.s + 2) s) := pull16_cell (p := .s) h h'
  simp only [exec, execRts, pullPC, hpull, setSp]

theorem ofInt_toNat_add_toInt (w : Word) (off : Byte) : BitVec.ofInt 16 (w.toNat + off.toInt) = w + sext8 off := by
  rw [BitVec.ofInt_add, BitVec.ofInt_natCast, BitVec.ofNat_toNat, BitVec.setWidth_eq]
  rfl

/-- The three calls are one: the return address is pushed after the target is computed (R147, R255, R256). -/
theorem exec_call {i : Instr} {s called : State}
    (h : (∃ m, i = .jsr m ∧ called = (effectiveAddress m s).2) ∨ (∃ off, i = .bsr off ∧ called = s) ∨
      (∃ off, i = .lbsr off ∧ called = s)) :
    ∃ target, exec i s = .next { push16 .s s.pc called with pc := target } := by
  rcases h with ⟨m, rfl, rfl⟩ | ⟨off, rfl, rfl⟩ | ⟨off, rfl, rfl⟩
  · exact ⟨(effectiveAddress m s).1, by simp only [exec, execJsr, callTo, effectiveAddress_pc]⟩
  · exact ⟨_, rfl⟩
  · exact ⟨_, rfl⟩

/-- Settles O33: the return address lies at the pointer that the call left. -/
theorem callsAndReturn : Obligations.CallsAndReturn := by
  refine ⟨⟨fun _ _ => ⟨rfl, rfl⟩, fun _ _ => ⟨rfl, rfl⟩, fun _ _ => ⟨rfl, rfl⟩⟩, ⟨rfl, fun _ => rfl⟩, fun _ _ => ⟨rfl, rfl⟩,
    fun _ _ => ⟨rfl, rfl⟩, fun s => ⟨fun m => ?_, fun off => ?_, fun _ => rfl, rfl, ?_⟩⟩
  · simp only [exec, execJsr, callTo, effectiveAddress_pc]
  · rw [ofInt_toNat_add_toInt]
    rfl
  · intro i called t u hcall hroom ht hs hplain hplain' hhi hlo
    obtain ⟨target, htarget⟩ := exec_call hcall
    obtain rfl : { push16 .s s.pc called with pc := target } = t := Host.Outcome.next.inj (htarget.symm.trans ht)
    have hsp : u.s = called.s - 2 := hs.trans (getSp_push16 .s s.pc called)
    have hreturn : cellWord u.s u = s.pc := by
      rw [cellWord, hhi, hlo, hsp]
      exact cellWord_push16 (p := .s) s.pc hroom
    rw [rts_cell hplain hplain', hreturn, hsp, BitVec.sub_add_cancel]

end Sys2Proof.Machine
end

section
/-! PROOFS of 20_memory: register lists, pushed and pulled. -/

namespace Sys2Proof.Machine

/-! ## Where the registers of a list lie -/

/-- The bytes that bit k of a list transfers (R83). -/
def bitBytes (list : Byte) (k : Nat) : Nat := if list.getLsbD k then (if k < 4 then 1 else 2) else 0

/-- Where the register of bit k lies from the pointer upward: behind those of the lower bits. -/
def listOffset (list : Byte) (k : Nat) : Nat := listBytes (list &&& BitVec.ofNat 8 (2 ^ k - 1))

theorem listBytes_eq_sum (list : Byte) : listBytes list = ((List.range 8).map (bitBytes list)).sum := by
  rw [List.sum_eq_foldl, List.foldl_map]
  rfl

/-- Of a list cut off at bit k the lower bits are left. -/
theorem bitBytes_mask (list : Byte) (k : Nat) {j : Nat} (hj : j < 8) :
    bitBytes (list &&& BitVec.ofNat 8 (2 ^ k - 1)) j = if j < k then bitBytes list j else 0 := by
  have hbit : (BitVec.ofNat 8 (2 ^ k - 1)).getLsbD j = decide (j < k) := by
    rw [BitVec.getLsbD_ofNat, Nat.testBit_two_pow_sub_one, decide_eq_true hj, Bool.true_and]
  by_cases h : j < k <;>
    simp only [bitBytes, BitVec.getLsbD_and, hbit, h, decide_true, decide_false, Bool.and_true, Bool.and_false, if_true, if_false,
      Bool.false_eq_true]

theorem listOffset_eq_sum (list : Byte) {k : Nat} (hk : k ≤ 8) :
    listOffset list k = ((List.range k).map (bitBytes list)).sum := by
  have hsplit : List.range 8 = List.range k ++ (List.range (8 - k)).map (k + ·) := by
    rw [← List.range_add, Nat.add_sub_cancel' hk]
  have hlow : (List.range k).map (bitBytes (list &&& BitVec.ofNat 8 (2 ^ k - 1))) = (List.range k).map (bitBytes list) :=
    List.map_congr_left fun j hj => by
      rw [List.mem_range] at hj
      rw [bitBytes_mask list k (hj.trans_le hk), if_pos hj]
  have hhigh : (((List.range (8 - k)).map (k + ·)).map (bitBytes (list &&& BitVec.ofNat 8 (2 ^ k - 1)))).sum = 0 := by
    simp only [List.map_map, List.sum_eq_zero_iff, List.mem_map, List.mem_range]
    rintro _ ⟨j, hj, rfl⟩
    rw [Function.comp_apply, bitBytes_mask list k (by omega), if_neg (by omega)]
  rw [listOffset, listBytes_eq_sum, hsplit, List.map_append, List.sum_append, hlow, hhigh, Nat.add_zero]

theorem listOffset_zero (list : Byte) : listOffset list 0 = 0 := listOffset_eq_sum list (Nat.zero_le 8)

theorem listOffset_succ (list : Byte) {k : Nat} (hk : k < 8) : listOffset list (k + 1) = listOffset list k + bitBytes list k := by
  rw [listOffset_eq_sum list hk, listOffset_eq_sum list hk.le, List.range_succ, List.map_append, List.sum_append]
  simp

theorem listOffset_eight (list : Byte) : listOffset list 8 = listBytes list := by
  rw [listOffset_eq_sum list le_rfl, listBytes_eq_sum]

theorem listOffset_mono (list : Byte) {j k : Nat} (hjk : j ≤ k) (hk : k ≤ 8) : listOffset list j ≤ listOffset list k := by
  induction k, hjk using Nat.le_induction with
  | base => exact le_rfl
  | succ k _ ih =>
    rw [listOffset_succ list hk]
    exact (ih (Nat.le_of_succ_le hk)).trans (Nat.le_add_right _ _)

/-- The bytes of bit k lie within those of the list. -/
theorem listOffset_add_le (list : Byte) {k : Nat} (hk : k < 8) : listOffset list k + bitBytes list k ≤ listBytes list := by
  rw [← listOffset_succ list hk, ← listOffset_eight]
  exact listOffset_mono list hk le_rfl

/-- The longest list transfers 12 bytes. -/
theorem listBytes_le (list : Byte) : listBytes list ≤ 12 := by
  have hbit : ∀ k, bitBytes list k ≤ if k < 4 then 1 else 2 := fun k => by unfold bitBytes; split <;> simp
  rw [listBytes_eq_sum]
  exact List.sum_le_sum fun k _ => hbit k

/-! ## PSHS and PSHU -/

/-- The bytes of the register that bit k of a list names, in memory order (R83). -/
def bitRegister (p : StackPtr) (s : State) : Nat → List Byte
  | 0 => [ccByte s.cc]
  | 1 => [s.a]
  | 2 => [s.b]
  | 3 => [s.dp]
  | 4 => wordBytes s.x
  | 5 => wordBytes s.y
  | 6 => wordBytes (getSp (otherSp p) s)
  | 7 => wordBytes s.pc
  | _ => []

/-- The bytes that bit k of a list pushes. -/
def pushedBy (p : StackPtr) (list : Byte) (s : State) (k : Nat) : List Byte := if list.getLsbD k then bitRegister p s k else []

/-- The bytes that a list pushes, in memory order. -/
def pushedBytes (p : StackPtr) (list : Byte) (s : State) : List Byte := (List.range 8).flatMap (pushedBy p list s)

theorem doIf_pushBytes (c : Bool) (p : StackPtr) (bytes : List Byte) (s : State) :
    doIf c (pushBytes p bytes) s = pushBytes p (if c then bytes else []) s := by
  cases c <;> rfl

theorem doIf_push8 (c : Bool) (p : StackPtr) (v : Byte) (s : State) :
    doIf c (push8 p v) s = pushBytes p (if c then [v] else []) s := doIf_pushBytes c p [v] s

theorem doIf_push16 (c : Bool) (p : StackPtr) (v : Word) (s : State) :
    doIf c (push16 p v) s = pushBytes p (if c then wordBytes v else []) s := doIf_pushBytes c p (wordBytes v) s

theorem pushList_eq_pushBytes (p : StackPtr) (list : Byte) (s : State) :
    pushList p list s = pushBytes p (pushedBytes p list s) s := by
  simp only [pushList, doIf_push8, doIf_push16, ← pushBytes_append]
  congr 1
  simp [pushedBytes, pushedBy, bitRegister, List.range_succ]

theorem length_pushedBy (p : StackPtr) (list : Byte) (s : State) {k : Nat} (hk : k < 8) :
    (pushedBy p list s k).length = bitBytes list k := by
  unfold pushedBy bitBytes
  split
  · interval_cases k <;> rfl
  · rfl

theorem length_pushedBytes_range (p : StackPtr) (list : Byte) (s : State) {k : Nat} (hk : k ≤ 8) :
    ((List.range k).flatMap (pushedBy p list s)).length = listOffset list k := by
  rw [List.length_flatMap, listOffset_eq_sum list hk]
  congr 1
  refine List.map_congr_left fun j hj => ?_
  exact length_pushedBy p list s ((List.mem_range.mp hj).trans_le hk)

theorem length_pushedBytes (p : StackPtr) (list : Byte) (s : State) : (pushedBytes p list s).length = listBytes list :=
  (length_pushedBytes_range p list s le_rfl).trans (listOffset_eight list)

/-- The bytes of bit k stand behind those of the lower bits. -/
theorem pushedBytes_split (p : StackPtr) (list : Byte) (s : State) {k : Nat} (hk : k < 8) :
    ∃ behind, pushedBytes p list s = (List.range k).flatMap (pushedBy p list s) ++ (pushedBy p list s k ++ behind) := by
  have hsplit : List.range 8 = List.range k ++ k :: (List.range (7 - k)).map (k + 1 + ·) := by
    have h8 : 8 = k + 1 + (7 - k) := by omega
    rw [h8, List.range_add, List.range_succ, List.append_assoc, List.singleton_append]
  exact ⟨_, by rw [pushedBytes, hsplit, List.flatMap_append, List.flatMap_cons]⟩

/-- From the pointer upward lie the bytes of the listed registers. -/
theorem heldAt_pushList {p : StackPtr} {list : Byte} {s : State} {k : Nat} (hroom : RoomBelow 12 p s) (hk : k < 8)
    (hbit : list.getLsbD k = true) :
    HeldAt (getSp p (pushList p list s) + BitVec.ofNat 16 (listOffset list k)) (bitRegister p s k) (pushList p list s) := by
  have hlen : (pushedBytes p list s).length ≤ 12 := (length_pushedBytes p list s).trans_le (listBytes_le list)
  have hall := heldAt_pushBytes (hroom.mono hlen) (hlen.trans_lt (by decide))
  obtain ⟨behind, hsplit⟩ := pushedBytes_split p list s hk
  rw [← pushList_eq_pushBytes, hsplit, pushedBy, if_pos hbit] at hall
  rw [← length_pushedBytes_range p list s hk.le]
  exact hall.part

theorem getSp_pushList (p : StackPtr) (list : Byte) (s : State) :
    getSp p (pushList p list s) = getSp p s - BitVec.ofNat 16 (listBytes list) := by
  rw [pushList_eq_pushBytes, getSp_pushBytes, length_pushedBytes]

/-- Onto a RAM stack a list changes the pointer and memory only. -/
theorem pushList_ram {p : StackPtr} {list : Byte} {s : State} (hroom : RoomBelow 12 p s) :
    pushList p list s = { setSp p (getSp p (pushList p list s)) s with mem := (pushList p list s).mem } := by
  have hlen : (pushedBytes p list s).length ≤ 12 := (length_pushedBytes p list s).trans_le (listBytes_le list)
  obtain ⟨mem, hmem⟩ := pushBytes_ram (hroom.mono hlen)
  rw [getSp_pushList, pushList_eq_pushBytes, hmem, length_pushedBytes]

theorem cellByte_pushList_other {p : StackPtr} {list : Byte} {s : State} {a : Word}
    (h : a ∉ below (getSp p s) (listBytes list)) : cellByte a (pushList p list s) = cellByte a s := by
  rw [pushList_eq_pushBytes]
  exact cellByte_pushBytes_other (by rwa [length_pushedBytes])

/-- Settles O37: PSHS and PSHU push the bytes of the listed registers. -/
theorem pushRegisterList : Obligations.PushRegisterList := by
  refine fun p list s => ⟨pushList p list s, by cases p <;> rfl, getSp_pushList p list s, by cases p <;> rfl, fun hroom => ?_⟩
  intro byteAt wordAt
  have byte : ∀ {k b}, k < 8 → bitRegister p s k = [b] → list.getLsbD k = true → byteAt k = b := by
    intro k b hk hb hbit
    exact (hb ▸ heldAt_pushList hroom hk hbit).byte
  have word : ∀ {k v}, k < 8 → bitRegister p s k = wordBytes v → list.getLsbD k = true → wordAt k = v := by
    intro k v hk hv hbit
    exact (hv ▸ heldAt_pushList hroom hk hbit).word
  refine ⟨pushList_ram hroom, fun a ha => cellByte_pushList_other fun hmem => ?_, byte (by decide) rfl, byte (by decide) rfl,
    byte (by decide) rfl, byte (by decide) rfl, word (by decide) rfl, word (by decide) rfl,
    fun h => (word (by decide) rfl h).trans (by cases p <;> rfl), word (by decide) rfl⟩
  obtain ⟨k, h1, hk, rfl⟩ := mem_below.mp hmem
  exact ha k h1 hk rfl

/-! ## PULS and PULU -/

/-- The transfer of bit k of a list (R180, R181). -/
def pullBit (p : StackPtr) : Nat → State → State
  | 0 => pullCC p
  | 1 => pullA p
  | 2 => pullB p
  | 3 => pullDP p
  | 4 => pullX p
  | 5 => pullY p
  | 6 => pullOther p
  | _ => pullPC p

/-- The transfers of the bits below k. -/
def pullBits (p : StackPtr) (list : Byte) (s : State) : Nat → State
  | 0 => s
  | k + 1 => doIf (list.getLsbD k) (pullBit p k) (pullBits p list s k)

theorem pullList_eq_pullBits (p : StackPtr) (list : Byte) (s : State) : pullList p list s = pullBits p list s 8 := rfl

/-- The bytes that bit k transfers move the pointer up (R47). -/
theorem getSp_pullBit (p : StackPtr) (k : Nat) (s : State) :
    getSp p (pullBit p k s) = getSp p s + BitVec.ofNat 16 (if k < 4 then 1 else 2) := by
  have byte : getSp p (pull8 p s).2 = getSp p s + 1#16 := getSp_pull8 p s
  have word : getSp p (pull16 p s).2 = getSp p s + 2#16 := getSp_pull16 p s
  split
  next hk => interval_cases k <;> cases p <;> simpa only [pullBit, pullCC, pullA, pullB, pullDP, getSp] using byte
  next hk =>
    match k with
    | 4 | 5 | 6 => cases p <;> simpa only [pullBit, pullX, pullY, pullOther, setOtherSp, loadS, getSp] using word
    | k + 7 => cases p <;> simpa only [pullBit, pullPC, getSp] using word

theorem getSp_doIf_pullBit (p : StackPtr) (list : Byte) (k : Nat) (s : State) :
    getSp p (doIf (list.getLsbD k) (pullBit p k) s) = getSp p s + BitVec.ofNat 16 (bitBytes list k) := by
  unfold bitBytes
  cases list.getLsbD k with
  | false => exact (BitVec.add_zero _).symm
  | true => exact getSp_pullBit p k s

theorem getSp_pullBits (p : StackPtr) (list : Byte) (s : State) {k : Nat} (hk : k ≤ 8) :
    getSp p (pullBits p list s k) = getSp p s + BitVec.ofNat 16 (listOffset list k) := by
  induction k with
  | zero => rw [listOffset_zero]; exact (BitVec.add_zero _).symm
  | succ k ih => rw [pullBits, getSp_doIf_pullBit, ih (Nat.le_of_succ_le hk), listOffset_succ list hk, add_ofNat_add]

theorem getSp_pullList (p : StackPtr) (list : Byte) (s : State) :
    getSp p (pullList p list s) = getSp p s + BitVec.ofNat 16 (listBytes list) := by
  rw [pullList_eq_pullBits, getSp_pullBits p list s le_rfl, listOffset_eight]

/-- What bit k of a list loads from an address as a state holds it, the pointer aside; a list that loads S arms NMI (R273). -/
def loadBit (p : StackPtr) (list : Byte) (addr : Word) (held : State) (k : Nat) (s : State) : State :=
  match k with
  | 0 => { s with cc := if list.getLsbD 0 then ccOfByte (cellByte addr held) else s.cc }
  | 1 => { s with a := if list.getLsbD 1 then cellByte addr held else s.a }
  | 2 => { s with b := if list.getLsbD 2 then cellByte addr held else s.b }
  | 3 => { s with dp := if list.getLsbD 3 then cellByte addr held else s.dp }
  | 4 => { s with x := if list.getLsbD 4 then cellWord addr held else s.x }
  | 5 => { s with y := if list.getLsbD 5 then cellWord addr held else s.y }
  | 6 => match p with
    | .s => { s with u := if list.getLsbD 6 then cellWord addr held else s.u }
    | .u => { s with s := if list.getLsbD 6 then cellWord addr held else s.s, nmiArmed := s.nmiArmed || list.getLsbD 6 }
  | 7 => { s with pc := if list.getLsbD 7 then cellWord addr held else s.pc }
  | _ => s

/-- What the bits below k load. -/
def loadBits (p : StackPtr) (list : Byte) (s : State) : Nat → State
  | 0 => s
  | k + 1 => loadBit p list (getSp p s + BitVec.ofNat 16 (listOffset list k)) s k (loadBits p list s k)

section Loads
variable {p : StackPtr} {list : Byte} {addr : Word} {held s : State} {k : Nat}

theorem loadBit_of_not (h : list.getLsbD k = false) : loadBit p list addr held k s = s := by
  unfold loadBit
  split
  case h_7 => cases p <;> simp only [h, Bool.false_eq_true, if_false, Bool.or_false]
  case h_9 => rfl
  all_goals simp only [h, Bool.false_eq_true, if_false]

theorem loadBit_setSp (w : Word) : loadBit p list addr held k (setSp p w s) = setSp p w (loadBit p list addr held k s) := by
  unfold loadBit
  split <;> cases p <;> rfl

theorem loadBit_memory : SameMemory s (loadBit p list addr held k s) := by
  unfold loadBit
  split
  case h_7 => cases p <;> exact ⟨rfl, rfl⟩
  all_goals exact ⟨rfl, rfl⟩

theorem loadBit_congr {other : State} (h : SameMemory held other) :
    loadBit p list addr other k s = loadBit p list addr held k s := by
  simp only [loadBit, cellByte_congr addr h.1 h.2, cellWord_congr addr h.1 h.2]

theorem loadBits_memory : SameMemory s (loadBits p list s k) := by
  induction k with
  | zero => exact ⟨rfl, rfl⟩
  | succ k ih => exact ⟨loadBit_memory.1.trans ih.1, loadBit_memory.2.trans ih.2⟩

/-- The transfer of a listed register from RAM or ROM. -/
theorem pullBit_cell (hk : k < 8) (hbit : list.getLsbD k = true) (h : Plain (getSp p s) s)
    (h' : 4 ≤ k → Plain (getSp p s + 1) s) :
    pullBit p k s = loadBit p list (getSp p s) s k (setSp p (getSp p s + BitVec.ofNat 16 (if k < 4 then 1 else 2)) s) := by
  have byte := pull8_cell h
  have word := fun hwide => pull16_cell h (h' hwide)
  obtain rfl | hwide | hbyte : k = 6 ∨ (k = 4 ∨ k = 5 ∨ k = 7) ∨ (k = 0 ∨ k = 1 ∨ k = 2 ∨ k = 3) := by omega
  · cases p <;> simp only [pullBit, pullOther, word (by decide), loadBit, hbit, if_true, Bool.or_true] <;> rfl
  · rcases hwide with rfl | rfl | rfl <;>
      simp only [pullBit, pullX, pullY, pullPC, word (by decide), loadBit, hbit, if_true] <;> rfl
  · rcases hbyte with rfl | rfl | rfl | rfl <;>
      simp only [pullBit, pullCC, pullA, pullB, pullDP, byte, loadBit, hbit, if_true] <;> rfl

/-- The bytes of a listed register lie among those of the list. -/
theorem plain_listOffset (hplain : PlainAbove (listBytes list) p s) (hk : k < 8) (hbit : list.getLsbD k = true) :
    Plain (getSp p s + BitVec.ofNat 16 (listOffset list k)) s ∧
      (4 ≤ k → Plain (getSp p s + BitVec.ofNat 16 (listOffset list k) + 1) s) := by
  have hle := listOffset_add_le list hk
  rw [bitBytes, if_pos hbit] at hle
  refine ⟨hplain _ (by split at hle <;> omega), fun hwide => ?_⟩
  rw [if_neg (by omega)] at hle
  have h := hplain (listOffset list k + 1) (by omega)
  rwa [add_ofNat_add] at h

/-- A stack in RAM or ROM: the pointer moves past the bytes of the list, and each listed register is loaded from its place. -/
theorem pullBits_cell (hplain : PlainAbove (listBytes list) p s) (hk : k ≤ 8) :
    pullBits p list s k = setSp p (getSp p s + BitVec.ofNat 16 (listOffset list k)) (loadBits p list s k) := by
  induction k with
  | zero => rw [listOffset_zero, BitVec.add_zero]; exact (setSp_getSp p s).symm
  | succ k ih =>
    rw [pullBits, ih (Nat.le_of_succ_le hk), loadBits, listOffset_succ list hk, bitBytes]
    have hmem : SameMemory s (setSp p (getSp p s + BitVec.ofNat 16 (listOffset list k)) (loadBits p list s k)) :=
      ⟨(setSp_mem p _ _).trans loadBits_memory.1, (setSp_memMap p _ _).trans loadBits_memory.2⟩
    cases hbit : list.getLsbD k with
    | false => rw [loadBit_of_not hbit]; rfl
    | true =>
      obtain ⟨hfirst, hsecond⟩ := plain_listOffset hplain hk hbit
      have hsp := getSp_setSp p (getSp p s + BitVec.ofNat 16 (listOffset list k)) (loadBits p list s k)
      rw [← hsp, ← plain_congr hmem.2] at hfirst hsecond
      have h := pullBit_cell hk hbit hfirst hsecond
      rw [getSp_setSp, setSp_setSp, loadBit_congr hmem, loadBit_setSp, BitVec.add_assoc, ← BitVec.ofNat_add] at h
      exact h

theorem pullList_cell (hplain : PlainAbove (listBytes list) p s) :
    pullList p list s = setSp p (getSp p s + BitVec.ofNat 16 (listBytes list)) (loadBits p list s 8) := by
  rw [pullList_eq_pullBits, pullBits_cell hplain le_rfl, listOffset_eight]

end Loads

/-- Settles O38: PULS and PULU load the listed registers. -/
theorem pullRegisterList : Obligations.PullRegisterList := by
  refine fun p list s => ⟨pullList p list s, by cases p <;> rfl, getSp_pullList p list s, by cases p <;> rfl, fun hplain => ?_⟩
  have hroom : PlainAbove (listBytes list) p s := fun k hk => hplain k (hk.trans_le (listBytes_le list))
  rw [getSp_pullList, pullList_cell hroom]
  cases p <;> simp only [loadBits, loadBit, setSp] <;> rfl

/-! ## A pull after a push -/

@[simp] theorem ccOfByte_ccByte (cc : CC) : ccOfByte (ccByte cc) = cc := by
  simp only [ccOfByte, ccByte, BitVec.getLsbD_append]
  simp

/-- NMI armed where a condition holds. -/
def armIf (c : Bool) (s : State) : State := { s with nmiArmed := s.nmiArmed || c }

theorem armIf_false (s : State) : armIf false s = s := by simp [armIf]

theorem armIf_armIf (b c : Bool) (s : State) : armIf c (armIf b s) = armIf (b || c) s := by simp [armIf, Bool.or_assoc]

theorem bitRegister_armIf (p : StackPtr) (c : Bool) (s : State) (k : Nat) : bitRegister p (armIf c s) k = bitRegister p s k := by
  unfold bitRegister
  split <;> cases p <;> rfl

section Restores
variable {p : StackPtr} {list : Byte} {s : State} {k : Nat}

/-- A load of what the register holds already changes nothing but the arming of NMI by S (R273). -/
theorem loadBit_same {addr : Word} {held : State} (hk : k < 8)
    (hheld : list.getLsbD k = true → HeldAt addr (bitRegister p s k) held) :
    loadBit p list addr held k s = armIf (p == .u && k == 6 && list.getLsbD 6) s := by
  have unarmed : k ≠ 6 ∨ list.getLsbD k = false → armIf (p == .u && k == 6 && list.getLsbD 6) s = s := fun h => by
    have harm : (p == .u && k == 6 && list.getLsbD 6) = false := by grind
    rw [harm, armIf_false]
  cases hbit : list.getLsbD k with
  | false => rw [loadBit_of_not hbit, unarmed (.inr hbit)]
  | true =>
    have byte : ∀ {b}, bitRegister p s k = [b] → cellByte addr held = b := fun hb => (hb ▸ hheld hbit).byte
    have word : ∀ {v}, bitRegister p s k = wordBytes v → cellWord addr held = v := fun hv => (hv ▸ hheld hbit).word
    obtain rfl | hnot : k = 6 ∨ k ≠ 6 := eq_or_ne k 6
    · cases p <;> rw [loadBit, if_pos hbit, word rfl] <;> simp [armIf, otherSp, getSp]
    · rw [unarmed (.inl hnot)]
      obtain rfl | hbyte | hwide : k = 0 ∨ (k = 1 ∨ k = 2 ∨ k = 3) ∨ (k = 4 ∨ k = 5 ∨ k = 7) := by omega
      · rw [loadBit, if_pos hbit, byte rfl, ccOfByte_ccByte]
      · rcases hbyte with rfl | rfl | rfl <;> rw [loadBit, if_pos hbit, byte rfl]
      · rcases hwide with rfl | rfl | rfl <;> rw [loadBit, if_pos hbit, word rfl]

/-- Loads of what the registers hold already. -/
theorem loadBits_same
    (hheld : ∀ k < 8, list.getLsbD k = true →
      HeldAt (getSp p s + BitVec.ofNat 16 (listOffset list k)) (bitRegister p s k) s) (hk : k ≤ 8) :
    loadBits p list s k = armIf (p == .u && decide (6 < k) && list.getLsbD 6) s := by
  induction k with
  | zero => simp [loadBits, armIf_false]
  | succ k ih =>
    have harm : decide (6 < k + 1) = (decide (6 < k) || k == 6) := by grind
    rw [loadBits, ih (Nat.le_of_succ_le hk), loadBit_same hk (by simpa only [bitRegister_armIf] using hheld k hk), armIf_armIf,
      harm]
    congr 1
    grind

/-- A push changes no register that its list names. -/
theorem bitRegister_pushList (hroom : RoomBelow 12 p s) : bitRegister p (pushList p list s) k = bitRegister p s k := by
  rw [pushList_ram hroom]
  unfold bitRegister
  split <;> cases p <;> rfl

/-- The bytes pushed lie in the room below the pointer. -/
theorem plainAbove_pushList (hroom : RoomBelow 12 p s) : PlainAbove (listBytes list) p (pushList p list s) := by
  intro k hk
  have hle := listBytes_le list
  have haddr : getSp p s - BitVec.ofNat 16 (listBytes list) + BitVec.ofNat 16 k =
      getSp p s - BitVec.ofNat 16 (listBytes list - k) := by bv_omega
  rw [getSp_pushList, haddr, pushList_eq_pushBytes, plain_congr (pushBytes_memMap p _ s)]
  exact .inl (hroom _ (by omega) (by omega))

end Restores

/-- Settles O39: the pull finds each listed register where the push left it. -/
theorem pullUndoesPush : Obligations.PullUndoesPush := by
  intro p list s hroom push pull
  have hheld : ∀ k < 8, list.getLsbD k = true → HeldAt (getSp p (pushList p list s) + BitVec.ofNat 16 (listOffset list k))
      (bitRegister p (pushList p list s) k) (pushList p list s) := fun k hk hbit => by
    rw [bitRegister_pushList hroom]
    exact heldAt_pushList hroom hk hbit
  have hpull : pullList p list (pushList p list s) =
      setSp p (getSp p s) (armIf (p == .u && list.getLsbD 6) (pushList p list s)) := by
    rw [pullList_cell (plainAbove_pushList hroom), loadBits_same hheld le_rfl, getSp_pushList, BitVec.sub_add_cancel]
    simp
  refine ⟨pushList p list s, pullList p list (pushList p list s), by cases p <;> rfl, by cases p <;> rfl, ?_, fun a ha => ?_⟩
  · have hram := pushList_ram (list := list) hroom
    rw [hpull]
    generalize pushList p list s = t at hram ⊢
    rw [hram]
    cases p <;> simp [armIf, setSp, getSp]
  · have hother : a ∉ below (getSp p s) (listBytes list) := fun hmem => by
      obtain ⟨k, h1, hk, rfl⟩ := mem_below.mp hmem
      exact ha k h1 (hk.trans (listBytes_le list)) rfl
    rw [hpull, cellByte_setSp, ← cellByte_pushList_other hother]
    exact cellByte_congr a rfl rfl

end Sys2Proof.Machine
end

section
/-! PROOFS of 20_memory: the bytes that every instruction stores to. -/

namespace Sys2Proof.Machine

/-! ## What an operation stores to -/

/-- From a state to another MEM_MAP is kept, and every byte of memory outside a list of addresses. -/
structure StoresOnly (stores : List Word) (s t : State) : Prop where
  memMap : t.memMap = s.memMap
  other : ∀ a, a ∉ stores → cellByte a t = cellByte a s

theorem StoresOnly.none {s t : State} (hm : t.mem = s.mem := by simp) (h : t.memMap = s.memMap := by simp) : StoresOnly [] s t :=
  ⟨h, fun a _ => cellByte_congr a hm h⟩

section Stores
variable {stores : List Word} {s t u : State}

/-- Something that stores nothing, and then the stores. -/
theorem StoresOnly.after (h : StoresOnly stores t u) (h' : StoresOnly [] s t) : StoresOnly stores s u :=
  ⟨h.memMap.trans h'.memMap, fun a ha => (h.other a ha).trans (h'.other a List.not_mem_nil)⟩

/-- The stores, and then something that stores nothing. -/
theorem StoresOnly.andThen (h : StoresOnly stores s t) (h' : StoresOnly [] t u) : StoresOnly stores s u :=
  ⟨h'.memMap.trans h.memMap, fun a ha => (h'.other a List.not_mem_nil).trans (h.other a ha)⟩

/-! ### Fields outside memory -/

theorem storesOnly_setE (v : Bool) (s : State) : StoresOnly [] s (setE v s) := .none

theorem storesOnly_setCC (cc : CC) (s : State) : StoresOnly [] s { s with cc } := .none rfl rfl

theorem storesOnly_setWait (wait : Wait) (s : State) : StoresOnly [] s { s with wait } := .none rfl rfl

theorem storesOnly_setPC (pc : Word) (s : State) : StoresOnly [] s { s with pc } := .none rfl rfl

theorem storesOnly_nextDraw (s : State) : StoresOnly [] s (nextDraw s) := .none

theorem storesOnly_setReg (r : Reg) (v : Word) (s : State) : StoresOnly [] s (setReg r v s) := by
  cases r <;> exact .none rfl rfl

/-! ### The bus and the stacks -/

theorem storesOnly_writeByte (addr : Word) (v : Byte) (s : State) : StoresOnly [addr] s (writeByte addr v s) :=
  ⟨writeByte_memMap addr v s, fun a ha => cellByte_writeByte_other v s (by simpa using ha)⟩

theorem storesOnly_writeWord (addr v : Word) (s : State) : StoresOnly [addr, addr + 1] s (writeWord addr v s) where
  memMap := writeWord_memMap addr v s
  other a ha := by
    simp only [List.mem_cons, List.not_mem_nil, or_false, not_or] at ha
    rw [writeWord, cellByte_writeByte_other _ _ ha.2, cellByte_writeByte_other _ _ ha.1]

theorem storesOnly_pushBytes (p : StackPtr) (bytes : List Byte) (s : State) :
    StoresOnly (below (getSp p s) bytes.length) s (pushBytes p bytes s) :=
  ⟨pushBytes_memMap p bytes s, fun _ => cellByte_pushBytes_other⟩

theorem storesOnly_push16 (p : StackPtr) (v : Word) (s : State) : StoresOnly (below (getSp p s) 2) s (push16 p v s) :=
  storesOnly_pushBytes p (wordBytes v) s

theorem storesOnly_pushList (p : StackPtr) (list : Byte) (s : State) :
    StoresOnly (below (getSp p s) (listBytes list)) s (pushList p list s) := by
  rw [pushList_eq_pushBytes, ← length_pushedBytes p list s]
  exact storesOnly_pushBytes p _ s

/-- The bytes of the entire frame in memory order (R276). -/
def frameBytes (s : State) : List Byte :=
  [ccByte s.cc] ++ ([s.a] ++ ([s.b] ++ ([s.dp] ++ (wordBytes s.x ++ (wordBytes s.y ++ (wordBytes s.u ++ wordBytes s.pc))))))

theorem pushEntireFrame_eq_pushBytes (s : State) : pushEntireFrame s = pushBytes .s (frameBytes s) s := by
  simp only [pushEntireFrame, push8_eq_pushBytes, push16_eq_pushBytes, ← pushBytes_append, frameBytes]

theorem storesOnly_pushEntireFrame (s : State) : StoresOnly (below s.s 12) s (pushEntireFrame s) := by
  rw [pushEntireFrame_eq_pushBytes]
  exact storesOnly_pushBytes .s (frameBytes s) s

/-! ### The shapes of the instructions -/

theorem storesOnly_memUnary (f : Byte → CC → Byte × CC) (m : MemOperand) (s : State) :
    StoresOnly (storesByte m s) s (memUnary f m s) := (storesOnly_writeByte _ _ _).after .none

theorem storesOnly_storeAcc (r : Acc) (m : MemOperand) (s : State) : StoresOnly (storesByte m s) s (storeAcc r m s) :=
  (storesOnly_writeByte _ _ _).after .none

theorem storesOnly_storeWord (r : Reg16) (m : MemOperand) (s : State) : StoresOnly (storesWord m s) s (storeWord r m s) :=
  (storesOnly_writeWord _ _ _).after .none

theorem storesOnly_withFreeH {op : Bool → State → State} (hop : ∀ h t, StoresOnly stores t (op h t)) (s : State) :
    StoresOnly stores (nextDraw s) (withFreeH op s) := hop _ _

theorem storesOnly_callTo (target : Word) (s : State) : StoresOnly (below s.s 2) s (callTo target s) :=
  (storesOnly_push16 .s s.pc s).andThen (storesOnly_setPC target _)

theorem storesOnly_accOperand (r : Acc) (f : Byte → Byte → CC → Byte × CC) (src : Src8) (s : State) :
    StoresOnly [] s (accOperand r f src s) := .none (by simp [accOperand]) (by simp [accOperand])

theorem storesOnly_testOperand (r : Acc) (f : Byte → Byte → CC → Byte × CC) (src : Src8) (s : State) :
    StoresOnly [] s (testOperand r f src s) := .none (by simp [testOperand]) (by simp [testOperand])

theorem storesOnly_accUnary (r : Acc) (f : Byte → CC → Byte × CC) (s : State) : StoresOnly [] s (accUnary r f s) :=
  .none (by simp [accUnary]) (by simp [accUnary])

theorem storesOnly_loadAcc (r : Acc) (src : Src8) (s : State) : StoresOnly [] s (loadAcc r src s) :=
  .none (by simp [loadAcc]) (by simp [loadAcc])

theorem storesOnly_wordOperand (r : Reg16) (f : Word → Word → CC → Word × CC) (src : Src16) (s : State) :
    StoresOnly [] s (wordOperand r f src s) := .none (by simp [wordOperand]) (by simp [wordOperand])

theorem storesOnly_compareWord (r : Reg16) (src : Src16) (s : State) : StoresOnly [] s (compareWord r src s) :=
  .none (by simp [compareWord]) (by simp [compareWord])

theorem storesOnly_loadWord (r : Reg16) (src : Src16) (s : State) : StoresOnly [] s (loadWord r src s) :=
  .none (by simp [loadWord]) (by simp [loadWord])

theorem storesOnly_branchIf (c : Cond) (off : Word) (s : State) : StoresOnly [] s (branchIf c off s) := by
  unfold branchIf
  split <;> exact .none rfl rfl

/-! ### Pulls and interrupts -/

theorem storesOnly_pullBit (p : StackPtr) (k : Nat) (s : State) : StoresOnly [] s (pullBit p k s) := by
  match k with
  | 0 | 1 | 2 | 3 =>
    exact .none (by simp [pullBit, pullCC, pullA, pullB, pullDP]) (by simp [pullBit, pullCC, pullA, pullB, pullDP])
  | 4 | 5 => exact .none (by simp [pullBit, pullX, pullY]) (by simp [pullBit, pullX, pullY])
  | 6 => cases p <;> exact .none (by simp [pullBit, pullOther, setOtherSp]) (by simp [pullBit, pullOther, setOtherSp])
  | k + 7 => exact .none (by simp [pullBit, pullPC]) (by simp [pullBit, pullPC])

theorem storesOnly_pullBits (p : StackPtr) (list : Byte) (s : State) (k : Nat) : StoresOnly [] s (pullBits p list s k) := by
  induction k with
  | zero => exact .none rfl rfl
  | succ k ih =>
    rw [pullBits]
    cases list.getLsbD k with
    | false => exact ih
    | true => exact ih.andThen (storesOnly_pullBit p k _)

theorem storesOnly_returnFromInterrupt (s : State) : StoresOnly [] s (returnFromInterrupt s) := by
  have pulled : ∀ k {t u}, StoresOnly [] t u → StoresOnly [] t (pullBit .s k u) := fun k _ u h =>
    h.andThen (storesOnly_pullBit .s k u)
  have hcc : StoresOnly [] s (pullCC .s s) := storesOnly_pullBit .s 0 s
  unfold returnFromInterrupt
  dsimp only
  split
  · exact pulled 7 (pulled 6 (pulled 5 (pulled 4 (pulled 3 (pulled 2 (pulled 1 hcc))))))
  · exact pulled 7 hcc

theorem stackFor_entire {k : Interrupt} (hk : k ≠ .firq) {s : State} (hw : s.wait = .none) :
    stackFor k s = pushEntireFrame (setE true s) := by
  unfold stackFor
  rw [hw]
  cases k with
  | firq => exact absurd rfl hk
  | nmi | irq | swi | swi2 | swi3 => rfl

/-- A software interrupt stores the entire frame (R276). -/
theorem storesOnly_softwareInterrupt {k : Interrupt} (hk : k ≠ .firq) (s : State) :
    StoresOnly (below s.s 12) s (raiseInterrupt k { s with wait := .none }) := by
  have entered : ∀ t, StoresOnly [] (stackFor k t) (raiseInterrupt k t) := fun t =>
    .none (by simp [raiseInterrupt, jumpThrough, enterHandler]) (by simp [raiseInterrupt, jumpThrough, enterHandler])
  have hunstacked := (storesOnly_setWait .none s).andThen (storesOnly_setE true _)
  have hstacked := (storesOnly_pushEntireFrame _).after hunstacked
  rw [← stackFor_entire hk rfl] at hstacked
  exact hstacked.andThen (entered _)

end Stores

/-! ## The stores of every instruction -/

/-- CWAI stores the entire frame, E set and the mask applied before (R135). -/
theorem storesOnly_cwai (mask : Byte) {s t : State} (he : exec (.cwai mask) s = .next t) : StoresOnly (below s.s 12) s t := by
  obtain rfl := Host.Outcome.next.inj he
  have hmasked := (storesOnly_setCC (andCC mask s.cc) s).andThen (storesOnly_setE true _)
  have hframe := (storesOnly_pushEntireFrame _).after hmasked
  exact hframe.andThen (storesOnly_setWait .cwai _)

theorem exec_transfer_storesOnly {r1 r2 : Reg} {s t : State}
    (he : exec (.tfr r1 r2) s = .next t ∨ exec (.exg r1 r2) s = .next t) : StoresOnly [] s t := by
  obtain ⟨v, rfl | ⟨w, rfl⟩⟩ := exec_transfer_next he
  · exact storesOnly_setReg r2 v s
  · exact (storesOnly_setReg r1 w s).andThen (storesOnly_setReg r2 v _)

/-- An instruction stores to the bytes that `storesTo` lists: one case for each shape. The cases left to the end are the branches. -/
theorem exec_storesOnly {i : Instr} {s t : State} (he : exec i s = .next t) : StoresOnly (storesTo i s) s t := by
  cases i with
  | tfr => exact exec_transfer_storesOnly (.inl he)
  | exg => exact exec_transfer_storesOnly (.inr he)
  | adca | adcb | adda | addb | anda | andb | eora | eorb | ora | orb => cases he; exact storesOnly_accOperand _ _ _ s
  | sbca | sbcb | suba | subb =>
    cases he; exact (storesOnly_withFreeH (fun _ => storesOnly_accOperand _ _ _) s).after (storesOnly_nextDraw s)
  | bita | bitb => cases he; exact storesOnly_testOperand _ _ _ s
  | cmpa | cmpb => cases he; exact (storesOnly_withFreeH (fun _ => storesOnly_testOperand _ _ _) s).after (storesOnly_nextDraw s)
  | clra | clrb | coma | comb | daa | deca | decb | inca | incb | lsra | lsrb | rola | rolb | rora | rorb =>
    cases he; exact storesOnly_accUnary _ _ s
  | asla | aslb | asra | asrb | lsla | lslb | nega | negb =>
    cases he; exact (storesOnly_withFreeH (fun _ => storesOnly_accUnary _ _) s).after (storesOnly_nextDraw s)
  | clr | com | dec | inc | lsr | rol | ror => cases he; exact storesOnly_memUnary _ _ s
  | asl | asr | lsl | neg => cases he; exact (storesOnly_memUnary _ _ (nextDraw s)).after (storesOnly_nextDraw s)
  | addd | subd => cases he; exact storesOnly_wordOperand _ _ _ s
  | cmpd | cmps | cmpu | cmpx | cmpy => cases he; exact storesOnly_compareWord _ _ s
  | lda | ldb => cases he; exact storesOnly_loadAcc _ _ s
  | ldd | lds | ldu | ldx | ldy => cases he; exact storesOnly_loadWord _ _ s
  | sta | stb => cases he; exact storesOnly_storeAcc _ _ s
  | std | sts | stu | stx | sty => cases he; exact storesOnly_storeWord _ _ s
  | leas m | leau m | leax m | leay m => cases he; exact .none (indexedAddress_mem m s) (indexedAddress_memMap m s)
  | abx | mul | sex | tsta | tstb | andcc | orcc | nop | sync => cases he; exact .none rfl rfl
  | tst m => cases he; exact .none (operand8_mem (.mem m) s) (operand8_memMap (.mem m) s)
  | pshs list => cases he; exact storesOnly_pushList .s list s
  | pshu list => cases he; exact storesOnly_pushList .u list s
  | puls list => cases he; exact storesOnly_pullBits .s list s 8
  | pulu list => cases he; exact storesOnly_pullBits .u list s 8
  | jmp m => cases he; exact .none (effectiveAddress_mem m s) (effectiveAddress_memMap m s)
  | jsr m => cases he; exact (storesOnly_callTo _ _).after .none
  | bsr | lbsr => cases he; exact storesOnly_callTo _ s
  | rts => cases he; exact storesOnly_pullBit .s 7 s
  | rti => cases he; exact storesOnly_returnFromInterrupt s
  | swi | swi2 | swi3 =>
    obtain rfl := Host.Outcome.next.inj he
    exact storesOnly_softwareInterrupt (by decide) s
  | cwai mask => exact storesOnly_cwai mask he
  | _ => cases he; exact storesOnly_branchIf _ _ s

/-- Settles O51: the byte at an address outside the stores is kept. -/
theorem memoryFrame : Obligations.MemoryFrame := by
  intro i s t he
  obtain ⟨hmap, hother⟩ := exec_storesOnly he
  exact ⟨hmap, hother⟩

end Sys2Proof.Machine
end

section
/-! PROOFS of 30_encoding: decoding and encoding are inverse up to the mnemonic; what the decoder rejects, the opcode map and the
post-bytes; the rows of the pages 2 and 3; the refusals of a step; and the addresses of the direct forms. -/

namespace Sys2Proof

open Machine

/-! ## The mnemonics -/

/-- Settles O1: the rows of the decoder's tables are the opcodes that the encoder writes. -/
theorem decodeInvertsEncode : Obligations.DecodeInvertsEncode := fun _ rest hwf => decode_encode_append hwf rest

/-- A second mnemonic has the bytes of the first (R92). -/
theorem encode_canonical (i : Instr) : encode (canonical i) = encode i := by cases i <;> rfl

theorem exec_canonical (i : Instr) (s : State) : exec (canonical i) s = exec i s := by cases i <;> rfl

theorem cycles_canonical (i : Instr) (s : State) : cycles (canonical i) s = cycles i s := by cases i <;> rfl

/-- Bytes decode to one instruction only, so instructions with the same bytes have the same first mnemonic. -/
theorem canonical_eq_of_encode_eq {i j : Instr} (hi : i.wellFormed = true) (hj : j.wellFormed = true) (h : encode i = encode j) :
    canonical i = canonical j := by
  have hdecode := decode_encode_append hi []
  rw [h, decode_encode_append hj []] at hdecode
  exact (Decoded.ok.inj hdecode).1.symm

/-- Settles O2: the bytes are those of the first mnemonic, and decode to it. -/
theorem secondMnemonics : Obligations.SecondMnemonics := by
  refine ⟨fun i j hi hj => ⟨canonical_eq_of_encode_eq hi hj, fun h => ?_⟩, fun i s => ⟨exec_canonical i s, cycles_canonical i s⟩⟩
  rw [← encode_canonical i, h, encode_canonical j]

/-- Settles O6: the decoder run on each word. -/
theorem decodedWords : Obligations.DecodedWords := ⟨rfl, rfl, rfl, rfl, rfl, rfl, rfl, rfl, rfl, rfl, rfl⟩

/-! ## The pages -/

theorem findForm_eq_none {op : Nat} {rows : List (Nat × Form)} : findForm op rows = none ↔ op ∉ rows.map Prod.fst := by
  induction rows with
  | nil => simp [findForm]
  | cons row rows ih =>
    rw [findForm, List.map_cons, List.mem_cons, not_or, ← ih]
    by_cases h : row.1 = op
    · simp [h]
    · simp [h, Ne.symm h]

theorem mem_of_findForm {op : Nat} {rows : List (Nat × Form)} {form : Form} (h : findForm op rows = some form) :
    (op, form) ∈ rows := by
  induction rows with
  | nil => cases h
  | cons row rows ih =>
    rw [findForm] at h
    split at h
    next heq =>
      obtain rfl := beq_iff_eq.mp heq
      cases h
      exact List.mem_cons_self
    next => exact List.mem_cons_of_mem _ (ih h)

theorem decodePage_of_findForm {rows : List (Nat × Form)} {op : Byte} {form : Form} (h : findForm op.toNat rows = some form)
    (rest : List Byte) : decodePage rows (op :: rest) = decodeForm form rest := by
  simp only [decodePage, h]

theorem decode_page1 {b : Byte} (h10 : b ≠ 0x10) (h11 : b ≠ 0x11) (rest : List Byte) :
    decode (b :: rest) = decodePage page1Rows (b :: rest) := (if_neg h10).trans (if_neg h11)

theorem decode_page2 (bs : List Byte) : decode (0x10 :: bs) = decodePage page2Rows bs := rfl

theorem decode_page3 (bs : List Byte) : decode (0x11 :: bs) = decodePage page3Rows bs := rfl

/-! ## Rejections -/

theorem mapDecoded_eq_bad {α β : Type} {f : α → β} {d : Decoded α} {e : DecodeError} :
    mapDecoded f d = .bad e ↔ d = .bad e := by
  cases d <;> simp [mapDecoded]

theorem decodeByte_ne_bad (bs : List Byte) (e : DecodeError) : decodeByte bs ≠ .bad e := by
  cases bs <;> exact nofun

theorem decodeWord_ne_bad (bs : List Byte) (e : DecodeError) : decodeWord bs ≠ .bad e := by
  rcases bs with _ | ⟨h, _ | ⟨l, rest⟩⟩ <;> exact nofun

/-- The sub-modes `mmmm` without a row in R81, and those that R80 refuses with the indirect bit or without it. -/
def undefinedSubmode (mmmm : Nat) (ind : Bool) : Bool :=
  if mmmm = 0x0 ∨ mmmm = 0x2 then ind
  else if mmmm = 0xF then !ind
  else mmmm ∉ [0x1, 0x3, 0x4, 0x5, 0x6, 0x8, 0x9, 0xB, 0xC, 0xD]

theorem decodeSubmode_eq_bad {mmmm : Nat} {r : IdxReg} {ind : Bool} {rest : List Byte} {e : DecodeError} :
    decodeSubmode mmmm r ind rest = .bad e ↔ undefinedSubmode mmmm ind = true ∧ e = .illegalPostbyte := by
  unfold decodeSubmode
  split
  case h_14 => simp_all [undefinedSubmode, eq_comm]
  case h_1 | h_3 | h_13 => cases ind <;> simp [undefinedSubmode, mapDecoded_eq_bad, decodeWord_ne_bad, eq_comm]
  all_goals simp [undefinedSubmode, mapDecoded_eq_bad, decodeByte_ne_bad, decodeWord_ne_bad]

/-- A post-byte is rejected for its own bits, whatever follows it. -/
theorem decodeIndexed_cons_eq_bad {pb : Byte} {rest : List Byte} {e : DecodeError} :
    decodeIndexed (pb :: rest) = .bad e ↔
      (pb.getLsbD 7 = true ∧ undefinedSubmode (pb.extractLsb' 0 4).toNat (pb.getLsbD 4) = true) ∧ e = .illegalPostbyte := by
  simp only [decodeIndexed]
  cases pb.getLsbD 7 <;> simp [decodeSubmode_eq_bad]

theorem decodeIndexed_ne_illegalOpcode (bs : List Byte) : decodeIndexed bs ≠ .bad .illegalOpcode := by
  cases bs with
  | nil => exact nofun
  | cons pb rest => simp [decodeIndexed_cons_eq_bad]

theorem decodeRegPair_ne_illegalOpcode (f : Reg → Reg → Instr) (bs : List Byte) : decodeRegPair f bs ≠ .bad .illegalOpcode := by
  cases bs with
  | nil => exact nofun
  | cons pb rest =>
    simp only [decodeRegPair]
    split
    · split <;> exact nofun
    · exact nofun

/-- An operand is never rejected for its opcode. -/
theorem decodeForm_ne_illegalOpcode (form : Form) (bs : List Byte) : decodeForm form bs ≠ .bad .illegalOpcode := by
  cases form with
  | inh i => exact nofun
  | byte | direct => exact mapDecoded_eq_bad.not.mpr (decodeByte_ne_bad bs _)
  | word | extended => exact mapDecoded_eq_bad.not.mpr (decodeWord_ne_bad bs _)
  | indexed | lea => exact mapDecoded_eq_bad.not.mpr (decodeIndexed_ne_illegalOpcode bs)
  | regPair f => exact decodeRegPair_ne_illegalOpcode f bs

/-- A page refuses the opcodes that are not in its table, and no other (R87). -/
theorem decodePage_cons_illegalOpcode {rows : List (Nat × Form)} {op : Byte} {rest : List Byte} :
    decodePage rows (op :: rest) = .bad .illegalOpcode ↔ op.toNat ∉ rows.map Prod.fst := by
  rw [decodePage, ← findForm_eq_none]
  cases findForm op.toNat rows with
  | none => simp
  | some form => simp [decodeForm_ne_illegalOpcode form rest]

theorem decodePage_illegalOpcode {rows : List (Nat × Form)} {bs : List Byte} :
    decodePage rows bs = .bad .illegalOpcode ↔ ∃ op rest, bs = op :: rest ∧ op.toNat ∉ rows.map Prod.fst := by
  constructor
  · intro h
    cases bs with
    | nil => cases h
    | cons op rest => exact ⟨op, rest, rfl, decodePage_cons_illegalOpcode.mp h⟩
  · rintro ⟨op, rest, rfl, hop⟩
    exact decodePage_cons_illegalOpcode.mpr hop

/-! ## Well formed -/

/-- What a form makes of its operand is well formed. -/
def Form.WellFormed : Form → Prop
  | .inh i => i.wellFormed = true
  | .byte f => ∀ v, (f v).wellFormed = true
  | .word f => ∀ v, (f v).wellFormed = true
  | .direct f | .extended f | .indexed f => ∀ m, (f m).wellFormed = true
  | .lea f => ∀ m, (f m).wellFormed = true
  | .regPair f => ∀ r1 r2, (regWide r1 == regWide r2) = true → (f r1 r2).wellFormed = true

theorem mapDecoded_eq_ok {α β : Type} {f : α → β} {d : Decoded α} {v : β} {rest : List Byte} (h : mapDecoded f d = .ok v rest) :
    ∃ w, v = f w := by
  cases d with
  | ok w bs => exact ⟨w, (Decoded.ok.inj h).1.symm⟩
  | needMore | bad => cases h

theorem decodeForm_wellFormed {form : Form} {bs rest : List Byte} {i : Instr} (hf : form.WellFormed)
    (h : decodeForm form bs = .ok i rest) : i.wellFormed = true := by
  cases form with
  | inh => cases h; exact hf
  | byte | word | lea =>
    obtain ⟨v, rfl⟩ := mapDecoded_eq_ok h
    exact hf v
  | direct | extended | indexed =>
    obtain ⟨v, rfl⟩ := mapDecoded_eq_ok h
    exact hf _
  | regPair f =>
    cases bs with
    | nil => cases h
    | cons pb bs =>
      simp only [decodeForm, decodeRegPair] at h
      split at h
      · split at h
        next hw => cases h; exact hf _ _ hw
        next => cases h
      · cases h

/-- Every row of the three pages makes well-formed instructions (R84 to R86). -/
theorem rows_wellFormed : (∀ row ∈ page1Rows, row.2.WellFormed) ∧ (∀ row ∈ page2Rows, row.2.WellFormed) ∧
    ∀ row ∈ page3Rows, row.2.WellFormed := by
  simp only [← List.forall_iff_forall_mem, page1Rows_eq_flatten]
  and_intros <;> simp [Form.WellFormed, Instr.wellFormed]

theorem decodePage_wellFormed {rows : List (Nat × Form)} {bs rest : List Byte} {i : Instr} (hrows : ∀ row ∈ rows, row.2.WellFormed)
    (h : decodePage rows bs = .ok i rest) : i.wellFormed = true := by
  cases bs with
  | nil => cases h
  | cons op bs =>
    simp only [decodePage] at h
    cases hform : findForm op.toNat rows with
    | none => rw [hform] at h; cases h
    | some form =>
      rw [hform] at h
      exact decodeForm_wellFormed (hrows _ (mem_of_findForm hform)) h

/-- What bytes decode to is well formed: no bytes decode to a TFR or EXG of two widths (R82). -/
theorem decode_wellFormed {bs rest : List Byte} {i : Instr} (h : decode bs = .ok i rest) : i.wellFormed = true := by
  obtain ⟨hone, htwo, hthree⟩ := rows_wellFormed
  unfold decode at h
  split at h
  · cases h
  · split at h
    · exact decodePage_wellFormed htwo h
    · split at h
      · exact decodePage_wellFormed hthree h
      · exact decodePage_wellFormed hone h

/-! ## The opcode map -/

/-- The opcodes that page 1 leaves unused (R87). -/
def unusedPage1 : List Byte :=
  [0x01, 0x02, 0x05, 0x0B, 0x14, 0x15, 0x18, 0x1B, 0x38, 0x3E, 0x41, 0x42, 0x45, 0x4B, 0x4E, 0x51, 0x52, 0x55, 0x5B, 0x5E,
   0x61, 0x62, 0x65, 0x6B, 0x71, 0x72, 0x75, 0x7B, 0x87, 0x8F, 0xC7, 0xCD, 0xCF]

/-- Row by row, the opcodes of page 1 are the bytes that are neither unused nor a page byte (R84, R87). -/
theorem page1Tables_opcodes : page1Tables.map (List.map Prod.fst) =
    (List.range 16).map fun row => (List.range' (16 * row) 16).filter (BitVec.ofNat 8 · ∉ 0x10 :: 0x11 :: unusedPage1) := by
  decide

theorem mem_page1_iff {b : Byte} : b.toNat ∈ page1Rows.map Prod.fst ↔ b ∉ 0x10 :: 0x11 :: unusedPage1 := by
  rw [page1Rows_eq_flatten, List.map_flatten, page1Tables_opcodes]
  simp only [List.mem_flatten, List.mem_map, List.mem_range, exists_exists_and_eq_and, List.mem_filter, List.mem_range'_1,
    decide_eq_true_eq, BitVec.ofNat_toNat, BitVec.setWidth_eq]
  exact ⟨fun ⟨_, _, _, hb⟩ => hb, fun hb => ⟨b.toNat / 16, by omega, by omega, hb⟩⟩

/-- The opcodes of page 1 rise along its rows. -/
theorem page1_nodup : (page1Rows.map Prod.fst).Nodup := by
  have hrise : (page1Rows.map Prod.fst).IsChain (· < ·) := by
    rw [page1Rows_eq_flatten, List.map_flatten, List.isChain_flatten (by decide)]
    decide
  exact hrise.pairwise.imp Nat.ne_of_lt

theorem page1_length : page1Rows.length = 221 := by
  rw [page1Rows_eq_flatten, List.length_flatten]
  rfl

/-- The bytes that are refused for their opcode (R87). -/
theorem decode_illegalOpcode {b : Byte} {rest : List Byte} : decode (b :: rest) = .bad .illegalOpcode ↔
    b ∈ unusedPage1 ∨ (b = 0x10 ∧ ∃ c bs, rest = c :: bs ∧ c.toNat ∉ page2Rows.map Prod.fst) ∨
      (b = 0x11 ∧ ∃ c bs, rest = c :: bs ∧ c.toNat ∉ page3Rows.map Prod.fst) := by
  by_cases h10 : b = 0x10
  · subst h10
    rw [decode_page2, decodePage_illegalOpcode, or_iff_right (by decide), or_iff_left (fun h => absurd h.1 (by decide)),
      and_iff_right rfl]
  · by_cases h11 : b = 0x11
    · subst h11
      rw [decode_page3, decodePage_illegalOpcode, or_iff_right (by decide), or_iff_right (fun h => h10 h.1), and_iff_right rfl]
    · rw [decode_page1 h10 h11, decodePage_cons_illegalOpcode, mem_page1_iff, not_not, List.mem_cons, List.mem_cons]
      simp only [h10, h11, false_or, false_and, or_false]

/-! ## Post-bytes -/

/-- The 36 post-bytes of R80. -/
def undefinedPostbytes : List Byte :=
  [0x87, 0xA7, 0xC7, 0xE7, 0x97, 0xB7, 0xD7, 0xF7, 0x8A, 0xAA, 0xCA, 0xEA, 0x9A, 0xBA, 0xDA, 0xFA, 0x8E, 0xAE, 0xCE, 0xEE,
   0x9E, 0xBE, 0xDE, 0xFE, 0x8F, 0xAF, 0xCF, 0xEF, 0x90, 0xB0, 0xD0, 0xF0, 0x92, 0xB2, 0xD2, 0xF2]

theorem mem_undefinedPostbytes_iff : ∀ pb : Byte, pb ∈ undefinedPostbytes ↔
    pb.getLsbD 7 = true ∧ undefinedSubmode (pb.extractLsb' 0 4).toNat (pb.getLsbD 4) = true := by
  decide

theorem decodeIndexed_illegalPostbyte {pb : Byte} {rest : List Byte} :
    decodeIndexed (pb :: rest) = .bad .illegalPostbyte ↔ pb ∈ undefinedPostbytes := by
  rw [decodeIndexed_cons_eq_bad, mem_undefinedPostbytes_iff, and_iff_left rfl]

theorem decode_page1_of_findForm {op : Byte} {form : Form} (h : findForm op.toNat page1Rows = some form) (rest : List Byte) :
    decode (op :: rest) = decodeForm form rest :=
  readsPage_one rest (by rw [← findForm_flatten, ← page1Rows_eq_flatten, h])

/-- Settles O4: behind an opcode whose mode is indexed the post-byte is rejected as it is by itself. -/
theorem undefinedPostbytesRefused : Obligations.UndefinedPostbytesRefused := by
  refine ⟨fun pb rest => decodeIndexed_illegalPostbyte, fun op pb rest hpb => ?_⟩
  have hbad : decodeIndexed (pb :: rest) = .bad .illegalPostbyte := decodeIndexed_illegalPostbyte.mpr hpb
  refine ⟨?_, ?_, ?_⟩
  · rintro (⟨f, h⟩ | ⟨f, h⟩) <;> exact (decode_page1_of_findForm h _).trans (mapDecoded_eq_bad.mpr hbad)
  · rintro ⟨f, h⟩
    exact (decodePage_of_findForm h _).trans (mapDecoded_eq_bad.mpr hbad)
  · rintro ⟨f, h⟩
    exact (decodePage_of_findForm h _).trans (mapDecoded_eq_bad.mpr hbad)

theorem eq_regCode_of_regOfCode {c : BitVec 4} {r : Reg} (h : regOfCode c = some r) : c = regCode r :=
  (beq_iff_eq.mp (List.find?_some (p := fun r => regCode r == c) h)).symm

theorem nibbles_append (v : Byte) : v.extractLsb' 4 4 ++ v.extractLsb' 0 4 = v :=
  (BitVec.extractLsb'_append_extractLsb'_eq_extractLsb' (start₂ := 4) rfl).trans BitVec.extractLsb'_eq_self

/-- A post-byte that is no pair of registers of one width is rejected (R82). -/
theorem decodeRegPair_bad {f : Reg → Reg → Instr} {pb : Byte} {rest : List Byte}
    (h : ∀ r1 r2 : Reg, pb = regCode r1 ++ regCode r2 → regWide r1 ≠ regWide r2) :
    decodeRegPair f (pb :: rest) = .bad .undefinedTransferOperand := by
  simp only [decodeRegPair]
  split
  next r1 r2 h1 h2 =>
    have hpb : pb = regCode r1 ++ regCode r2 := by
      rw [← eq_regCode_of_regOfCode h1, ← eq_regCode_of_regOfCode h2, nibbles_append]
    exact if_neg (mt beq_iff_eq.mp (h r1 r2 hpb))
  next => rfl

/-- Settles O5: the post-byte is read by its two nibbles. -/
theorem registerPairPostbytes : Obligations.RegisterPairPostbytes := by
  refine ⟨⟨rfl, rfl, rfl, rfl, rfl, rfl, rfl, rfl, rfl, rfl⟩, fun r1 r2 rest hw => ?_, fun pb rest h => ?_⟩
  · have hwide := beq_iff_eq.mpr hw
    exact ⟨decode_regPair readsPage_one rfl hwide rest, decode_regPair readsPage_one rfl hwide rest⟩
  · exact ⟨decodeRegPair_bad h, decodeRegPair_bad h⟩

/-! ## The rows of the pages 2 and 3 -/

theorem memForms_of_encodeMem {page : List Byte} {dir idx ext : Byte} {base : Nat} {mk : MemOperand → Instr}
    (h : ∀ m st, encode (mk m) = page ++ encodeMem dir idx ext m ∧ cycles (mk m) st = memCycles base m) :
    MemForms page dir idx ext base mk :=
  ⟨fun a st => h (.direct a) st, fun x st => h (.indexed x) st, fun w st => h (.extended w) st⟩

theorem src16Forms_of_encodeSrc16 {page : List Byte} {op : Byte} {immCycles base : Nat} {mk : Src16 → Instr}
    (h : ∀ src st, encode (mk src) = page ++ encodeSrc16 op src ∧ cycles (mk src) st = src16Cycles immCycles base src) :
    Src16Forms page op (op + 0x10) (op + 0x20) (op + 0x30) immCycles base mk :=
  ⟨fun v st => h (.imm v) st, memForms_of_encodeMem fun m st => h (.mem m) st⟩

/-- Settles O35: each row's bytes and cycles are the encoder's and the count's. -/
theorem pageTwoAndThreeRows : Obligations.PageTwoAndThreeRows := by
  refine ⟨rfl, rfl, rfl, rfl, fun _ => rfl, fun _ => ⟨rfl, rfl⟩, fun _ _ => ⟨rfl, rfl⟩, ?branches, ⟨rfl, fun _ => rfl⟩,
    ⟨rfl, fun _ => rfl⟩, ?cmpd, ?cmpy, ?ldy, ?sty, ?lds, ?sts, ?cmpu, ?cmps⟩
  case branches =>
    rw [← List.forall_iff_forall_mem]
    and_intros <;> exact fun _ _ => ⟨rfl, rfl⟩
  case sty | sts => exact memForms_of_encodeMem fun _ _ => ⟨rfl, rfl⟩
  case cmpd | cmpy | ldy | lds | cmpu | cmps => exact src16Forms_of_encodeSrc16 fun _ _ => ⟨rfl, rfl⟩

end Sys2Proof

namespace Sys2Proof.Machine

/-! ## Refused steps -/

/-- The fetch reads no more of the bytes in RAM or ROM than it needs to reject them. -/
theorem fetchMore_codeAt_bad {s : State} {e : DecodeError} : ∀ (more bytes : List Byte) (n : Nat) (p : Word),
    decode (bytes ++ more) = .bad e → CodeAt s more p → more.length ≤ n →
    (fetchMore n bytes { s with pc := p }).1 = .bad e
  | [], bytes, n, p, hd, _, _ => by
    rw [List.append_nil] at hd
    cases n <;> simp [fetchMore, hd]
  | b :: more, bytes, n + 1, p, hd, ⟨hplain, hbyte, hcode⟩, hn => by
    by_cases hneed : decode bytes = .needMore
    · have hread : readByte p { s with pc := p } = (b, { s with pc := p }) := by
        rw [readByte_cell (st := { s with pc := p }) hplain]
        exact congrArg (·, { s with pc := p }) hbyte
      simp only [fetchMore, hneed, hread]
      exact fetchMore_codeAt_bad more (bytes ++ [b]) n (p + 1) (by simpa using hd) hcode (Nat.le_of_succ_le_succ hn)
    · rw [decided_decode bytes _ hneed] at hd
      have hbad : decode bytes = .bad e := by
        cases hb : decode bytes <;> simp_all [Decoded.leaving]
      simp only [fetchMore, hbad]

/-- A boundary that runs an instruction refuses bytes in RAM or ROM that the decoder rejects. -/
theorem step_codeAt_bad {s : State} {code : List Byte} {e : DecodeError} (hr : Running s) (hd : decode code = .bad e)
    (hc : CodeAt s code s.pc) (hlen : code.length ≤ 5) : step s = .refused (refusalOf e) := by
  have hfetch : (fetch s).1 = .bad e := fetchMore_codeAt_bad code [] 5 s.pc hd hc hlen
  have hnext : nextAction s = .refuse (refusalOf e) := by
    simp only [nextAction, hr.noInput, boundaryAction, hr.noInterrupt, hr.noWait, fetchAction]
    split <;> simp_all
  rw [step_refused, carryOut, hnext]

/-- Settles O3: a page refuses what its table does not list, and the step refuses what the decoder does. -/
theorem opcodeMap : Obligations.OpcodeMap := by
  refine ⟨⟨⟨page1_length, page1_nodup⟩, ⟨rfl, by decide⟩, rfl, by decide⟩, fun b rest => decode_illegalOpcode,
    fun b s hr hb hc => ?_, fun b s hr => ⟨fun hb hc => ?_, fun hb hc => ?_⟩⟩
  · exact step_codeAt_bad hr (decode_illegalOpcode.mpr (.inl hb)) hc (by simp)
  · exact step_codeAt_bad hr (decode_illegalOpcode.mpr (.inr (.inl ⟨rfl, b, [], rfl, hb⟩))) hc (by simp)
  · exact step_codeAt_bad hr (decode_illegalOpcode.mpr (.inr (.inr ⟨rfl, b, [], rfl, hb⟩))) hc (by simp)

/-! ## Every refusal of a step -/

/-- A well-formed instruction always completes (R271). -/
theorem exec_next_of_wellFormed {i : Instr} (hwf : i.wellFormed = true) (s : State) : ∃ t, exec i s = .next t := by
  cases i with
  | tfr | exg => exact ⟨_, if_pos hwf⟩
  | _ => exact ⟨_, rfl⟩

theorem fetchAction_refuse {s : State} : (∃ r, fetchAction s = .refuse r) ↔ ∃ e, (fetch s).1 = .bad e := by
  unfold fetchAction
  split
  next h => simp [h]
  next h => exact absurd (congrArg Prod.fst h) (fetch_ne_needMore s)
  next h => simp [h]

theorem boundaryAction_refuse {s : State} : (∃ r, boundaryAction s = .refuse r) ↔
    acceptedInterrupt s = none ∧ s.wait = .none ∧ ∃ e, (fetch s).1 = .bad e := by
  unfold boundaryAction
  split
  next h => simp [h]
  next h =>
    split
    next hw => simp [h, hw, fetchAction_refuse]
    next hw => simp [hw]
    next hw => simp [hw]

theorem nextAction_refuse {s : State} : (∃ r, nextAction s = .refuse r) ↔ ∃ t,
    (s.inputs = [] ∧ t = s ∨ ∃ inp rest, s.inputs = inp :: rest ∧ inp.reset = false ∧ t = takeInput inp rest s) ∧
      ∃ r, boundaryAction t = .refuse r := by
  unfold nextAction
  split
  next h => simp [h]
  next inp rest h =>
    cases hr : inp.reset <;> simp [h, hr]

/-- An instruction that an action starts is well formed. -/
def Action.WellFormed : Action → Prop
  | .run i _ => i.wellFormed = true
  | .become _ | .refuse _ => True

theorem fetchAction_wellFormed (s : State) : (fetchAction s).WellFormed := by
  unfold fetchAction
  split
  next h =>
    obtain ⟨_, hd, _⟩ := fetchMore_ok h
    exact decode_wellFormed hd
  next => trivial
  next => trivial

theorem boundaryAction_wellFormed (s : State) : (boundaryAction s).WellFormed := by
  unfold boundaryAction
  split
  · trivial
  · split
    · exact fetchAction_wellFormed s
    · trivial
    · trivial

theorem nextAction_wellFormed (s : State) : (nextAction s).WellFormed := by
  unfold nextAction
  split
  · exact boundaryAction_wellFormed s
  · dsimp only
    split
    · trivial
    · exact boundaryAction_wellFormed _

theorem carryOut_refused {s : State} : (∃ r, carryOut s = .refused r) ↔ ∃ r, nextAction s = .refuse r := by
  have hwf := nextAction_wellFormed s
  unfold carryOut
  cases hnext : nextAction s with
  | become | refuse => simp
  | run i t =>
    rw [hnext] at hwf
    obtain ⟨u, hu⟩ := exec_next_of_wellFormed hwf t
    simp [hu]

/-- Settles O9: a step is refused where its boundary fetches a rejection, since whatever decodes completes. -/
theorem stepRefusals : Obligations.StepRefusals := by
  refine fun s => ⟨nofun, ?_⟩
  simp only [step_refused, carryOut_refused, nextAction_refuse, boundaryAction_refuse, exists_and_left]

/-! ## Addresses -/

theorem toNat_add_ofInt (w : Word) (z : Int) : ((w + BitVec.ofInt 16 z).toNat : Int) = (w.toNat + z) % 65536 := by
  rw [BitVec.toNat_add, BitVec.toNat_ofInt]
  omega

theorem toNat_add_word (w v : Word) : ((w + v).toNat : Int) = (w.toNat + v.toNat) % 65536 := by
  rw [BitVec.toNat_add]
  omega

theorem toNat_sub_word (w v : Word) : ((w - v).toNat : Int) = (w.toNat - v.toNat) % 65536 := by
  rw [BitVec.toNat_sub]
  omega

theorem toNat_eq_emod (w : Word) : (w.toNat : Int) = w.toNat % 65536 := by omega

/-- Settles O10: the address is a register and a signed offset, or a register and a word. -/
theorem indexedAddresses : Obligations.IndexedAddresses := by
  intro r s base next computes
  have signed : ∀ (w : Word) {k : Nat} (n : BitVec k), ((w + n.signExtend 16).toNat : Int) = (w.toNat + n.toInt) % 65536 :=
    fun w _ n => toNat_add_ofInt w n.toInt
  have hd : ((getIdx r s + regD s).toNat : Int) = (base + (256 * s.a.toNat + s.b.toNat)) % 65536 := by
    rw [toNat_add_word, regD, toNat_catBytes]
    rfl
  exact ⟨fun n => ⟨signed _ n, rfl⟩, ⟨toNat_eq_emod _, rfl⟩, fun n => ⟨signed _ n, rfl⟩, fun n => ⟨toNat_add_word _ n, rfl⟩,
    ⟨signed _ s.a, rfl⟩, ⟨signed _ s.b, rfl⟩, ⟨hd, rfl⟩, ⟨toNat_eq_emod _, rfl⟩, ⟨toNat_eq_emod _, rfl⟩,
    ⟨toNat_sub_word _ 1, rfl⟩, ⟨toNat_sub_word _ 2, rfl⟩, fun n => ⟨signed _ n, rfl⟩, fun n => ⟨toNat_add_word _ n, rfl⟩⟩

theorem catBytes_eq_ofNat (h l : Byte) : catBytes h l = BitVec.ofNat 16 (256 * h.toNat + l.toNat) := by
  rw [← toNat_catBytes, BitVec.ofNat_toNat, BitVec.setWidth_eq]

/-- Settles O11: the address of a direct and of an extended operand is a pair of bytes, high first. -/
theorem plainOperands : Obligations.PlainOperands := by
  refine ⟨fun f a h l rest => ⟨rfl, ?_⟩, fun s => ⟨fun a => ?_, fun _ => rfl, fun _ => rfl, fun _ => rfl, fun _ => rfl,
    fun _ => rfl⟩⟩
  · rw [← catBytes_eq_ofNat]
    rfl
  · rw [← catBytes_eq_ofNat]
    rfl

end Sys2Proof.Machine
end

section
/-! PROOFS of 40_instructions_abx_to_ld: the sums and differences of 8 and 16 bits, the logical instructions on an accumulator and
an operand, MUL, SEX and DAA, decimal addition, and what the branches ask after a compare. -/

namespace Sys2Proof.Machine

/-! ## Forms -/

theorem src8Forms_of_encodeSrc8 {op : Byte} {mk : Src8 → Instr}
    (h : ∀ src st, encode (mk src) = encodeSrc8 op src ∧ cycles (mk src) st = src8Cycles 2 4 src) :
    Src8Forms op (op + 0x10) (op + 0x20) (op + 0x30) mk :=
  ⟨fun v st => h (.imm v) st, memForms_of_encodeMem fun m st => h (.mem m) st⟩

/-! ## Flags as numbers -/

theorem msb_byte (r : Byte) : r.msb = r.getLsbD 7 := BitVec.msb_eq_getLsbD_last r

theorem msb_word (r : Word) : r.msb = r.getLsbD 15 := BitVec.msb_eq_getLsbD_last r

theorem setNZ8_eq (r : Byte) (cc : CC) : setNZ8 r cc = { cc with n := r.getLsbD 7, z := decide (r = 0) } := by
  rw [setNZ8, msb_byte, beq_eq_decide]

theorem setNZ16_eq (r : Word) (cc : CC) : setNZ16 r cc = { cc with n := r.getLsbD 15, z := decide (r = 0) } := by
  rw [setNZ16, msb_word, beq_eq_decide]

theorem ofNat_eq_zero {w : Nat} (n : Nat) : BitVec.ofNat w n = 0 ↔ n % 2 ^ w = 0 := by
  rw [← BitVec.toNat_inj, BitVec.toNat_ofNat, BitVec.ofNat_eq_ofNat, BitVec.toNat_ofNat, Nat.zero_mod]

theorem ofInt_eq_zero {w : Nat} (z : Int) : BitVec.ofInt w z = 0 ↔ z % (2 ^ w : Nat) = 0 := by
  rw [← BitVec.toNat_inj, BitVec.toNat_ofInt, BitVec.ofNat_eq_ofNat, BitVec.toNat_ofNat, Nat.zero_mod]
  have := Int.emod_nonneg z (b := (2 ^ w : Nat)) (by positivity)
  omega

theorem overflow_add_eq (p q r : Bool) : (p == q && r != p) = decide (p = q ∧ r ≠ p) := by
  cases p <;> cases q <;> cases r <;> rfl

theorem overflow_sub_eq (p q r : Bool) : (p != q && r != p) = decide (p ≠ q ∧ r ≠ p) := by
  cases p <;> cases q <;> cases r <;> rfl

/-- `add8` with Z and V as numbers and bits say them (R101). -/
theorem add8_eq (a m : Byte) (c : Bool) (cc : CC) :
    add8 a m c cc =
      let sum := a.toNat + m.toNat + c.toNat
      let res : Byte := BitVec.ofNat 8 sum
      (res, { cc with
        h := decide (a.toNat % 16 + m.toNat % 16 + c.toNat > 15), n := res.getLsbD 7, z := decide (sum % 256 = 0)
        v := decide (a.getLsbD 7 = m.getLsbD 7 ∧ res.getLsbD 7 ≠ a.getLsbD 7), c := decide (sum > 255) }) := by
  simp only [add8, setNZ8_eq, overflow_add_eq, msb_byte, ofNat_eq_zero]
  rfl

theorem sub8_eq (h : Bool) (a m : Byte) (c : Bool) (cc : CC) :
    sub8 h a m c cc =
      let d : Int := a.toNat - m.toNat - c.toNat
      let res : Byte := BitVec.ofInt 8 d
      (res, { cc with
        h, n := res.getLsbD 7, z := decide (d % 256 = 0)
        v := decide (a.getLsbD 7 ≠ m.getLsbD 7 ∧ res.getLsbD 7 ≠ a.getLsbD 7), c := decide (d < 0) }) := by
  simp only [sub8, setNZ8_eq, overflow_sub_eq, msb_byte, ofInt_eq_zero]
  rfl

theorem add16_eq (a m : Word) (cc : CC) :
    add16 a m cc =
      let sum := a.toNat + m.toNat
      let res : Word := BitVec.ofNat 16 sum
      (res, { cc with
        n := res.getLsbD 15, z := decide (sum % 65536 = 0)
        v := decide (a.getLsbD 15 = m.getLsbD 15 ∧ res.getLsbD 15 ≠ a.getLsbD 15), c := decide (sum > 65535) }) := by
  simp only [add16, setNZ16_eq, overflow_add_eq, msb_word, ofNat_eq_zero]
  rfl

theorem sub16_eq (a m : Word) (cc : CC) :
    sub16 a m cc =
      let d : Int := a.toNat - m.toNat
      let res : Word := BitVec.ofInt 16 d
      (res, { cc with
        n := res.getLsbD 15, z := decide (d % 65536 = 0)
        v := decide (a.getLsbD 15 ≠ m.getLsbD 15 ∧ res.getLsbD 15 ≠ a.getLsbD 15), c := decide (d < 0) }) := by
  simp only [sub16, setNZ16_eq, overflow_sub_eq, msb_word, ofInt_eq_zero]
  rfl

/-! ## The shapes of the instructions -/

theorem withFreeH_eq (op : Bool → State → State) (s : State) :
    withFreeH op s = op (Config.freeBit s.draws) (nextDraw s) := rfl

@[simp] theorem getAcc_nextDraw (r : Acc) (s : State) : getAcc r (nextDraw s) = getAcc r s := by cases r <;> rfl

section Shapes
variable (r : Acc) (f : Byte → Byte → CC → Byte × CC) (src : Src8) (s : State)

/-- The accumulator and the old flags are those from before the operand is fetched. -/
theorem accOperand_eq :
    accOperand r f src s =
      let res := f (getAcc r s) (operand8 src s).1 s.cc
      setAcc r res.1 { (operand8 src s).2 with cc := res.2 } := by
  simp only [accOperand, getAcc_operand8, operand8_cc]

theorem testOperand_eq :
    testOperand r f src s = { (operand8 src s).2 with cc := (f (getAcc r s) (operand8 src s).1 s.cc).2 } := by
  simp only [testOperand, getAcc_operand8, operand8_cc]

/-- D too is as before the operand is fetched: no indexed form writes it. -/
theorem wordOperand_d_eq (f : Word → Word → CC → Word × CC) (src : Src16) :
    wordOperand .d f src s =
      let res := f (regD s) (operand16 src s).1 s.cc
      setD res.1 { (operand16 src s).2 with cc := res.2 } := by
  simp only [wordOperand, getReg16, loadReg16, regD_operand16, operand16_cc]

theorem compareWord_eq (r : Reg16) (src : Src16) :
    compareWord r src s =
      { (operand16 src s).2 with cc := (sub16 (getReg16 r (operand16 src s).2) (operand16 src s).1 s.cc).2 } := by
  rw [compareWord, operand16_cc]

end Shapes

/-- Settles O17: the accumulator with the operand, through `add8`, with the old C or with none. -/
theorem addEightBits : Obligations.AddEightBits := by
  refine ⟨?adca, ?adcb, ?adda, ?addb, fun src s => ?_⟩
  case adca | adcb | adda | addb => exact src8Forms_of_encodeSrc8 fun _ _ => ⟨rfl, rfl⟩
  simp only [exec, execAdca, execAdcb, execAdda, execAddb, accOperand_eq, add8_eq, Bool.toNat_false, and_self]

/-- Settles O18: the free bit for H is drawn first, then the operand is fetched and `sub8` taken. -/
theorem subtractEightBits : Obligations.SubtractEightBits := by
  refine ⟨?suba, ?subb, ?sbca, ?sbcb, ?cmpa, ?cmpb, fun src s => ?_⟩
  case suba | subb | sbca | sbcb | cmpa | cmpb => exact src8Forms_of_encodeSrc8 fun _ _ => ⟨rfl, rfl⟩
  simp only [exec, execSuba, execSubb, execSbca, execSbcb, execCmpa, execCmpb, withFreeH_eq, accOperand_eq, testOperand_eq,
    sub8_eq, getAcc_nextDraw, nextDraw_cc, Bool.toNat_false, and_self]

/-- Settles O19: D is as before the operand is fetched, an index register as the fetch leaves it. -/
theorem sixteenBitArithmetic : Obligations.SixteenBitArithmetic := by
  refine ⟨?addd, ?subd, ?cmpd, ?cmps, ?cmpu, ?cmpx, ?cmpy, fun src s => ?_⟩
  case addd | subd | cmpd | cmps | cmpu | cmpx | cmpy => exact src16Forms_of_encodeSrc16 fun _ _ => ⟨rfl, rfl⟩
  simp only [exec, execAddd, execSubd, execCmpd, execCmps, execCmpu, execCmpx, execCmpy, wordOperand_d_eq, compareWord_eq,
    getReg16, regD_operand16, add16_eq, sub16_eq, and_self]

theorem setNZ8V0_eq (r : Byte) (cc : CC) :
    setNZ8V0 r cc = { cc with n := r.getLsbD 7, z := decide (r = 0), v := false } := by
  rw [setNZ8V0, setNZ8_eq]

theorem logic8_eq (r : Byte) (cc : CC) :
    logic8 r cc = (r, { cc with n := r.getLsbD 7, z := decide (r = 0), v := false }) := by
  rw [logic8, setNZ8V0_eq]

theorem hiByte_ofNat (n : Nat) : hiByte (BitVec.ofNat 16 n) = BitVec.ofNat 8 (n / 256) := by
  apply BitVec.eq_of_toNat_eq
  simp only [hiByte, BitVec.extractLsb'_toNat, BitVec.toNat_ofNat, Nat.shiftRight_eq_div_pow]
  omega

theorem loByte_ofNat (n : Nat) : loByte (BitVec.ofNat 16 n) = BitVec.ofNat 8 n := by
  apply BitVec.eq_of_toNat_eq
  simp only [loByte, BitVec.extractLsb'_toNat, BitVec.toNat_ofNat, Nat.shiftRight_zero]
  omega

theorem zext8_mul_zext8 (a b : Byte) : zext8 a * zext8 b = BitVec.ofNat 16 (a.toNat * b.toNat) := by
  apply BitVec.eq_of_toNat_eq
  simp only [zext8, BitVec.toNat_mul, BitVec.toNat_setWidth, BitVec.toNat_ofNat]
  rw [Nat.mod_eq_of_lt (a.isLt.trans (by decide)), Nat.mod_eq_of_lt (b.isLt.trans (by decide))]

theorem mul8_eq (a b : Byte) (cc : CC) :
    mul8 a b cc =
      let p := a.toNat * b.toNat
      (BitVec.ofNat 16 p, { cc with z := decide (p = 0), c := p.testBit 7 }) := by
  have hlt : a.toNat * b.toNat < 2 ^ 16 := (Nat.mul_lt_mul'' a.isLt b.isLt).trans_eq rfl
  simp only [mul8, zext8_mul_zext8, beq_eq_decide, ofNat_eq_zero, Nat.mod_eq_of_lt hlt, BitVec.getLsbD_ofNat]
  rfl

/-- The sum that DAA makes, with its conditions as R136 writes them. -/
theorem daa8_eq (a : Byte) (cc : CC) :
    daa8 a cc =
      let lo := a.toNat % 16
      let hi := a.toNat / 16
      let sum := a.toNat + ((if cc.h = true ∨ lo > 9 then 0x06 else 0) +
        (if cc.c = true ∨ hi > 9 ∨ (hi > 8 ∧ lo > 9) then 0x60 else 0))
      let res : Byte := BitVec.ofNat 8 sum
      (res, { cc with n := res.getLsbD 7, z := decide (res = 0), v := false, c := cc.c || decide (sum > 255) }) := by
  simp only [daa8, daaCorrection, setNZ8V0_eq, Bool.or_eq_true, Bool.and_eq_true, decide_eq_true_eq, or_assoc]

/-- Settles O21: the logical shape for ORA and ORB, and the results of MUL, SEX and DAA as numbers. -/
theorem orMultiplyExtendAndDecimalAdjust : Obligations.OrMultiplyExtendAndDecimalAdjust := by
  refine ⟨?ora, ?orb, ⟨rfl, fun _ => rfl⟩, ⟨rfl, fun _ => rfl⟩, ⟨rfl, fun _ => rfl⟩,
    fun s => ⟨fun src => ?or, ?mul, ?sex, ?daa⟩⟩
  case ora | orb => exact src8Forms_of_encodeSrc8 fun _ _ => ⟨rfl, rfl⟩
  case or => simp only [exec, execOra, execOrb, accOperand_eq, logic8_eq, getAcc, setAcc, and_self]
  case mul => simp only [exec, execMul, mul8_eq, setD, hiByte_ofNat, loByte_ofNat]
  case sex => simp only [exec, execSex, sex8, setNZ8V0_eq, msb_byte]
  case daa => simp only [exec, execDaa, accUnary, daa8_eq, getAcc, setAcc]

/-- Settles O23: one shape with the result kept and one without, and `logic8` for the flags. -/
theorem andExclusiveOrAndBitTest : Obligations.AndExclusiveOrAndBitTest := by
  refine ⟨?anda, ?andb, ?eora, ?eorb, ?bita, ?bitb, fun src s => ?_⟩
  case anda | andb | eora | eorb | bita | bitb => exact src8Forms_of_encodeSrc8 fun _ _ => ⟨rfl, rfl⟩
  simp only [exec, execAnda, execAndb, execEora, execEorb, execBita, execBitb, accOperand_eq, testOperand_eq,
    logic8_eq, getAcc, and_self]

/-! ## Decimal addition -/

/-- The byte of a number of two decimal digits (packed BCD). -/
def packedBcd (n : Nat) : Byte := BitVec.ofNat 8 (16 * (n / 10) + n % 10)

theorem toNat_packedBcd {n : Nat} (h : n < 100) : (packedBcd n).toNat = 16 * (n / 10) + n % 10 := by
  rw [packedBcd, BitVec.toNat_ofNat]
  omega

/-- The decimal digits of a sum, its carries out of the ones and out of the tens, and what they make of the binary sum of the
packed BCD bytes and of the sum of their low digits. -/
theorem packedBcd_add {x y : Nat} (hx : x < 100) (hy : y < 100) :
    ∃ tens ones carry hundreds, tens < 10 ∧ ones < 10 ∧ (carry = 0 ∨ carry = 1) ∧ (hundreds = 0 ∨ hundreds = 1) ∧
      x + y = 100 * hundreds + 10 * tens + ones ∧
      (packedBcd x).toNat + (packedBcd y).toNat + 6 * carry = 160 * hundreds + 16 * tens + ones ∧
      (packedBcd x).toNat % 16 + (packedBcd y).toNat % 16 = 10 * carry + ones := by
  rw [toNat_packedBcd hx, toNat_packedBcd hy]
  exact ⟨(x + y) / 10 % 10, (x + y) % 10, (x % 10 + y % 10) / 10, (x + y) / 100, by omega, by omega, by omega, by omega,
    by omega, by omega, by omega⟩

/-- DAA of a sum of packed BCD bytes: H, C and the digits above 9 tell the two decimal carries (R136), and with 6 added for each
the binary digits are the decimal ones. -/
theorem daa8_add8_packedBcd {x y : Nat} (hx : x < 100) (hy : y < 100) (cc : CC) :
    let sum := add8 (packedBcd x) (packedBcd y) false cc
    let adjusted := daa8 sum.1 sum.2
    adjusted.1 = packedBcd ((x + y) % 100) ∧ adjusted.2.c = decide (100 ≤ x + y) := by
  intro sum adjusted
  obtain ⟨tens, ones, carry, hundreds, htens, hones, hcarry, hhundreds, hdecimal, hbinary, hhalf⟩ := packedBcd_add hx hy
  have hsum : sum.1.toNat = (160 * hundreds + 16 * tens + ones - 6 * carry) % 256 := by
    rw [← hbinary, Nat.add_sub_cancel]
    exact BitVec.toNat_ofNat _ _
  have hh : sum.2.h = decide (15 < 10 * carry + ones) := by
    rw [← hhalf]
    rfl
  have hc : sum.2.c = decide (255 < 160 * hundreds + 16 * tens + ones - 6 * carry) := by
    rw [← hbinary, Nat.add_sub_cancel]
    rfl
  have hcorrection : daaCorrection sum.1 sum.2 = 6 * carry + 96 * hundreds := by
    simp only [daaCorrection, hsum, hh, hc, Bool.or_eq_true, Bool.and_eq_true, decide_eq_true_eq]
    rcases hcarry with rfl | rfl <;> rcases hhundreds with rfl | rfl <;> split_ifs <;> omega
  have hresult : (packedBcd ((x + y) % 100)).toNat = 16 * tens + ones := by
    rw [toNat_packedBcd (Nat.mod_lt _ (by decide))]
    omega
  constructor
  · apply BitVec.eq_of_toNat_eq
    rw [hresult]
    simp only [adjusted, daa8, hcorrection, hsum, BitVec.toNat_ofNat]
    omega
  · simp only [adjusted, daa8, hcorrection, hsum, hc, ← Bool.decide_or, decide_eq_decide, hdecimal]
    omega

/-- Settles O22: DAA acts on what ADDA leaves in A and CC. -/
theorem decimalAddition : Obligations.DecimalAddition := by
  intro x y s hx hy bcd ha
  obtain ha : s.a = packedBcd x := ha
  refine ⟨_, _, rfl, rfl, ?_⟩
  rw [accOperand_eq]
  simp only [operand8, getAcc, ha]
  exact daa8_add8_packedBcd hx hy s.cc

/-! ## What the branches ask after a compare -/

/-- N and V together tell the sign of the exact difference, whether it fits or not (R222). -/
theorem negative_xor_overflow {w : Nat} (hw : 0 < w) (a m : BitVec w) :
    let r := BitVec.ofInt w (a.toNat - m.toNat)
    (r.msb ^^ (a.msb != m.msb && r.msb != a.msb)) = decide (a.toInt < m.toInt) := by
  intro r
  have hr : BitVec.ofInt w (a.toNat - m.toNat - false.toNat) = r := congrArg _ (Int.sub_zero _)
  have hfits := (signed_difference hw a m false).2
  rw [hr] at hfits
  cases hv : a.msb != m.msb && r.msb != a.msb with
  | false =>
    have hdifference := hfits hv
    rw [Bool.xor_false, BitVec.msb_eq_toInt, decide_eq_decide, hdifference, Bool.toNat_false]
    omega
  | true =>
    obtain ⟨hsigns, hflip⟩ : a.msb ≠ m.msb ∧ r.msb ≠ a.msb := by simpa using hv
    rw [Bool.eq_not.mpr hflip, Bool.xor_true, Bool.not_not, BitVec.msb_eq_toInt, decide_eq_decide]
    rw [BitVec.msb_eq_toInt, BitVec.msb_eq_toInt, ne_eq, decide_eq_decide] at hsigns
    omega

/-- What the conditions of R222 ask of R and M, unsigned and signed, after a compare of them. -/
def BranchesMean (cc : CC) (ru mu rs ms : Int) : Prop :=
  (holds .hi cc = true ↔ mu < ru) ∧ (holds .ls cc = true ↔ ru ≤ mu) ∧ (holds .cc cc = true ↔ mu ≤ ru) ∧
  (holds .cs cc = true ↔ ru < mu) ∧ (holds .ne cc = true ↔ ru ≠ mu) ∧ (holds .eq cc = true ↔ ru = mu) ∧
  (holds .ge cc = true ↔ ms ≤ rs) ∧ (holds .lt cc = true ↔ rs < ms) ∧ (holds .gt cc = true ↔ ms < rs) ∧
  (holds .le cc = true ↔ rs ≤ ms)

/-- C is the unsigned order, Z equality and N with V the signed order. -/
theorem branchesMean_of {cc : CC} {ru mu rs ms : Int} (hc : cc.c = decide (ru < mu)) (hz : cc.z = decide (ru = mu))
    (hs : (cc.n ^^ cc.v) = decide (rs < ms)) (heq : ru = mu ↔ rs = ms) : BranchesMean cc ru mu rs ms := by
  simp only [BranchesMean, holds, hc, hz, hs, ← decide_not, ← Bool.decide_or, decide_eq_true_eq, true_and]
  and_intros <;> omega

theorem ofInt_sub_toNat {w : Nat} (a m : BitVec w) : BitVec.ofInt w (a.toNat - m.toNat) = a - m := by
  rw [Int.sub_eq_add_neg, BitVec.ofInt_add, BitVec.ofInt_neg, BitVec.ofInt_natCast, BitVec.ofInt_natCast, BitVec.ofNat_toNat,
    BitVec.ofNat_toNat, BitVec.setWidth_eq, BitVec.setWidth_eq, BitVec.sub_eq_add_neg]

theorem ofInt_sub_toNat_eq_zero {w : Nat} (a m : BitVec w) :
    BitVec.ofInt w (a.toNat - m.toNat) = 0 ↔ (a.toNat : Int) = m.toNat := by
  rw [ofInt_sub_toNat, Int.natCast_inj, BitVec.toNat_inj]
  exact sub_eq_zero

theorem toNat_eq_iff_toInt_eq {w : Nat} (a m : BitVec w) : (a.toNat : Int) = m.toNat ↔ a.toInt = m.toInt := by
  rw [Int.natCast_inj, BitVec.toNat_inj, BitVec.toInt_inj]

theorem branchesMean_sub8 (h : Bool) (a m : Byte) (cc : CC) :
    BranchesMean (sub8 h a m false cc).2 a.toNat m.toNat a.toInt m.toInt := by
  have hd : (a.toNat : Int) - m.toNat - false.toNat = a.toNat - m.toNat := Int.sub_zero _
  refine branchesMean_of ?_ ?_ ?_ (toNat_eq_iff_toInt_eq a m)
  · simp only [sub8, hd, decide_eq_decide]
    omega
  · simp only [sub8, hd, setNZ8, beq_eq_decide, ofInt_sub_toNat_eq_zero]
  · simp only [sub8, hd, setNZ8]
    exact negative_xor_overflow (by decide) a m

theorem branchesMean_sub16 (a m : Word) (cc : CC) :
    BranchesMean (sub16 a m cc).2 a.toNat m.toNat a.toInt m.toInt := by
  refine branchesMean_of ?_ ?_ ?_ (toNat_eq_iff_toInt_eq a m)
  · simp only [sub16, decide_eq_decide]
    omega
  · simp only [sub16, setNZ16, beq_eq_decide, ofInt_sub_toNat_eq_zero]
  · exact negative_xor_overflow (by decide) a m

theorem branchesMean_testOperand (r : Acc) (h : Bool) (src : Src8) (s : State) :
    BranchesMean (testOperand r (fun a m cc => sub8 h a m false cc) src s).cc (getAcc r s).toNat (operand8 src s).1.toNat
      (getAcc r s).toInt (operand8 src s).1.toInt := by
  rw [testOperand_eq]
  exact branchesMean_sub8 h _ _ _

theorem branchesMean_compareWord {r : Reg16} {src : Src16} {s : State} {w : Word} (h : getReg16 r (operand16 src s).2 = w) :
    BranchesMean (compareWord r src s).cc w.toNat (operand16 src s).1.toNat w.toInt (operand16 src s).1.toInt := by
  rw [compareWord_eq, h]
  exact branchesMean_sub16 _ _ _

/-- Settles O36: CMPA and CMPB draw the bit for H first; D is as before the operand is fetched, an index register as after. -/
theorem branchesAfterCompare : Obligations.BranchesAfterCompare := by
  refine ⟨fun src s => ⟨⟨_, rfl, ?a⟩, ⟨_, rfl, ?b⟩⟩, fun src s =>
    ⟨⟨_, rfl, ?d⟩, ⟨_, rfl, ?x⟩, ⟨_, rfl, ?y⟩, ⟨_, rfl, ?u⟩, ⟨_, rfl, ?s⟩⟩⟩
  case a => exact branchesMean_testOperand .a _ src (nextDraw s)
  case b => exact branchesMean_testOperand .b _ src (nextDraw s)
  case d => exact branchesMean_compareWord (regD_operand16 src s)
  case x | y | u | s => exact branchesMean_compareWord rfl

end Sys2Proof.Machine
end

section
/-! PROOFS of 40_instructions_abx_to_ld: the operations on one byte, of an accumulator or of memory; the instructions that need no
rule of their own; loads. -/

namespace Sys2Proof.Machine

/-! ## Single operands -/

/-- What an operation on one byte answers: a result, with its N and Z in the flags it leaves. -/
def withNZ (res : Byte) (cc : CC) : Byte × CC := (res, { cc with n := res.getLsbD 7, z := decide (res = 0) })

theorem setNZ8_pair (res : Byte) (cc : CC) : (res, setNZ8 res cc) = withNZ res cc := by rw [setNZ8_eq, withNZ]

section Unary
variable (h : Bool) (m : Byte) (cc : CC)

theorem neg8_eq : neg8 h m cc =
    withNZ (BitVec.ofInt 8 (-m.toNat)) { cc with h, v := decide (m = 0x80), c := decide (m ≠ 0) } := by
  have hres : BitVec.ofInt 8 (-m.toNat) = 0 - m := by
    rw [BitVec.ofInt_neg, BitVec.ofInt_natCast, BitVec.ofNat_toNat, BitVec.setWidth_eq]
    exact (BitVec.zero_sub m).symm
  have hc : (m != 0) = decide (m ≠ 0) := by rw [bne, beq_eq_decide, decide_not]
  rw [← setNZ8_pair, hres, neg8, beq_eq_decide, hc]
  rfl

theorem com8_eq : com8 m cc = withNZ (~~~m) { cc with v := false, c := true } := by
  rw [← setNZ8_pair]
  rfl

theorem dec8_eq : dec8 m cc = withNZ (BitVec.ofInt 8 (m.toNat - 1)) { cc with v := decide (m = 0x80) } := by
  have hres : BitVec.ofInt 8 (m.toNat - 1) = m - 1 := by
    rw [Int.sub_eq_add_neg, BitVec.ofInt_add, BitVec.ofInt_natCast, BitVec.ofNat_toNat, BitVec.setWidth_eq]
    exact (BitVec.sub_eq_add_neg m 1).symm
  rw [← setNZ8_pair, hres, dec8, beq_eq_decide]
  rfl

theorem inc8_eq : inc8 m cc = withNZ (BitVec.ofNat 8 (m.toNat + 1)) { cc with v := decide (m = 0x7F) } := by
  have hres : BitVec.ofNat 8 (m.toNat + 1) = m + 1 := by
    rw [BitVec.ofNat_add, BitVec.ofNat_toNat, BitVec.setWidth_eq]
    rfl
  rw [← setNZ8_pair, hres, inc8, beq_eq_decide]
  rfl

theorem clr8_eq : clr8 cc = withNZ 0 { cc with v := false, c := false } := rfl

theorem ofNat_two_mul_toNat (b : Nat) : BitVec.ofNat 8 (2 * m.toNat + b) = m <<< 1 + BitVec.ofNat 8 b := by
  apply BitVec.eq_of_toNat_eq
  simp only [BitVec.toNat_ofNat, BitVec.toNat_add, BitVec.toNat_shiftLeft, Nat.shiftLeft_eq]
  omega

theorem ofNat_toNat_div_two : BitVec.ofNat 8 (m.toNat / 2) = m >>> 1 := by
  apply BitVec.eq_of_toNat_eq
  have := m.isLt
  rw [BitVec.toNat_ofNat, BitVec.toNat_ushiftRight, Nat.shiftRight_eq_div_pow]
  omega

/-- A shift to the right that copies bit 7 halves the signed number, toward minus infinity. -/
theorem ofInt_toInt_div_two : BitVec.ofInt 8 (m.toInt / 2) = (m >>> 1) ||| (m &&& 0x80) := by
  have hshift : BitVec.ofInt 8 (m.toInt / 2) = m.sshiftRight 1 := by
    rw [← BitVec.ofInt_toInt (x := m.sshiftRight 1), BitVec.toInt_sshiftRight, Int.shiftRight_eq_div_pow]
    rfl
  rw [hshift]
  apply BitVec.eq_of_getLsbD_eq
  intro k hk
  simp only [BitVec.getLsbD_sshiftRight, BitVec.getLsbD_or, BitVec.getLsbD_and, BitVec.getLsbD_ushiftRight, msb_byte]
  interval_cases k <;> simp

theorem asl8_eq : asl8 h m cc =
    withNZ (BitVec.ofNat 8 (2 * m.toNat)) { cc with h, v := m.getLsbD 7 ^^ m.getLsbD 6, c := m.getLsbD 7 } := by
  rw [← setNZ8_pair, show BitVec.ofNat 8 (2 * m.toNat) = m <<< 1 from (ofNat_two_mul_toNat m 0).trans (BitVec.add_zero _)]
  rfl

theorem asr8_eq : asr8 h m cc = withNZ (BitVec.ofInt 8 (m.toInt / 2)) { cc with h, c := m.getLsbD 0 } := by
  rw [← setNZ8_pair, ofInt_toInt_div_two]
  rfl

/-- N after LSR is bit 7 of a result whose bit 7 is 0. -/
theorem lsr8_eq : lsr8 m cc = withNZ (BitVec.ofNat 8 (m.toNat / 2)) { cc with c := m.getLsbD 0 } := by
  have hn : (m >>> 1).getLsbD 7 = false := by simp
  rw [ofNat_toNat_div_two, withNZ, hn, lsr8, beq_eq_decide]

/-- A shift clears the end at which a bit enters. -/
theorem shifted_and_carry (c : Bool) :
    m <<< 1 &&& (BitVec.ofBool c).setWidth 8 = 0#8 ∧ m >>> 1 &&& (BitVec.ofBool c).setWidth 8 <<< 7 = 0#8 := by
  constructor <;>
  · apply BitVec.eq_of_getLsbD_eq
    intro k hk
    interval_cases k <;> simp

/-- To let a bit enter there is to add it with its weight. -/
theorem shifted_add_carry (c : Bool) :
    m <<< 1 + BitVec.ofNat 8 c.toNat = m <<< 1 ||| (BitVec.ofBool c).setWidth 8 ∧
      m >>> 1 + BitVec.ofNat 8 (128 * c.toNat) = m >>> 1 ||| (BitVec.ofBool c).setWidth 8 <<< 7 := by
  obtain ⟨hleft, hright⟩ := shifted_and_carry m c
  rw [← BitVec.add_eq_or_of_and_eq_zero _ _ hleft, ← BitVec.add_eq_or_of_and_eq_zero _ _ hright]
  cases c <;> exact ⟨rfl, rfl⟩

theorem rol8_eq : rol8 m cc =
    withNZ (BitVec.ofNat 8 (2 * m.toNat + cc.c.toNat)) { cc with v := m.getLsbD 7 ^^ m.getLsbD 6, c := m.getLsbD 7 } := by
  rw [← setNZ8_pair, ofNat_two_mul_toNat, (shifted_add_carry m cc.c).1]
  rfl

theorem ror8_eq : ror8 m cc = withNZ (BitVec.ofNat 8 (m.toNat / 2 + 128 * cc.c.toNat)) { cc with c := m.getLsbD 0 } := by
  rw [← setNZ8_pair, BitVec.ofNat_add, ofNat_toNat_div_two, (shifted_add_carry m cc.c).2]
  rfl

end Unary

/-- One read of the byte, then one write at the same address; the old flags are those from before (R104). -/
theorem memUnary_eq (f : Byte → CC → Byte × CC) (m : MemOperand) (s : State) :
    memUnary f m s =
      let ea := effectiveAddress m s
      let v := readByte ea.1 ea.2
      let res := f v.1 s.cc
      writeByte ea.1 res.1 { v.2 with cc := res.2 } := by
  simp only [memUnary, readByte_cc, effectiveAddress_cc]

/-- Settles O25: for each accumulator, the operation's result with its N and Z; TSTA and TSTB write the flags only. -/
theorem accumulatorOperations : Obligations.AccumulatorOperations := by
  refine ⟨?forms, fun r s => ?_⟩
  case forms => constructorm* _ ∧ _ <;> exact ⟨rfl, fun _ => rfl⟩
  cases r with
  | a | b =>
    simp only [exec, execNega, execNegb, execComa, execComb, execDeca, execDecb, execInca, execIncb, execTsta, execTstb,
      withFreeH_eq, accUnary, neg8_eq, com8_eq, dec8_eq, inc8_eq, setNZ8V0_eq, withNZ, true_and]
    -- What is left: the free bit of NEG is drawn before or after, and TST stores nothing.
    exact ⟨rfl, rfl⟩

/-- Settles O26: for each accumulator, the shifted byte as a number, with its N and Z. -/
theorem accumulatorShifts : Obligations.AccumulatorShifts := by
  refine ⟨?forms, fun r s => ?_⟩
  case forms => constructorm* _ ∧ _ <;> exact ⟨rfl, fun _ => rfl⟩
  cases r with
  | a | b =>
    simp only [exec, execAsla, execAslb, execLsla, execLslb, execAsra, execAsrb, execLsra, execLsrb, execRola, execRolb,
      execRora, execRorb, withFreeH_eq, accUnary, asl8_eq, asr8_eq, lsr8_eq, rol8_eq, ror8_eq, withNZ, true_and,
      and_true]
    -- What is left: the free bits of ASL and ASR are drawn before or after.
    exact ⟨rfl, rfl⟩

/-- Settles O27: the same operations through one read and one write; TST is the read alone. -/
theorem memoryOperations : Obligations.MemoryOperations := by
  refine ⟨?neg, ?com, ?dec, ?inc, ?tst, ?clr, fun m s => ?_⟩
  case neg | com | dec | inc | tst | clr => exact memForms_of_encodeMem fun _ _ => ⟨rfl, rfl⟩
  simp only [exec, execNeg, execCom, execDec, execInc, execTst, execClr, withFreeH_eq, memUnary_eq, neg8_eq, com8_eq,
    dec8_eq, inc8_eq, clr8_eq, operand8, setNZ8V0_eq, withNZ, readByte_cc, effectiveAddress_cc, nextDraw_cc, and_self]

/-- Settles O28: the same shifts through one read and one write. -/
theorem memoryShifts : Obligations.MemoryShifts := by
  refine ⟨?asl, ?lsl, ?asr, ?lsr, ?rol, ?ror, fun m s => ?_⟩
  case asl | lsl | asr | lsr | rol | ror => exact memForms_of_encodeMem fun _ _ => ⟨rfl, rfl⟩
  simp only [exec, execAsl, execLsl, execAsr, execLsr, execRol, execRor, withFreeH_eq, memUnary_eq, asl8_eq, asr8_eq,
    lsr8_eq, rol8_eq, ror8_eq, withNZ, nextDraw_cc, and_self]

/-! ## CC as a byte -/

/-- Each bit of CC as software reads it (R24). -/
theorem ccByte_bits (cc : CC) :
    (ccByte cc).getLsbD 7 = cc.e ∧ (ccByte cc).getLsbD 6 = cc.f ∧ (ccByte cc).getLsbD 5 = cc.h ∧
      (ccByte cc).getLsbD 4 = cc.i ∧ (ccByte cc).getLsbD 3 = cc.n ∧ (ccByte cc).getLsbD 2 = cc.z ∧
      (ccByte cc).getLsbD 1 = cc.v ∧ (ccByte cc).getLsbD 0 = cc.c := by
  have h := ccOfByte_ccByte cc
  exact ⟨congrArg CC.e h, congrArg CC.f h, congrArg CC.h h, congrArg CC.i h, congrArg CC.n h, congrArg CC.z h,
    congrArg CC.v h, congrArg CC.c h⟩

/-- ANDCC's bit by bit is the and of the bytes (R113). -/
theorem andCC_eq (m : Byte) (cc : CC) : andCC m cc = ccOfByte (ccByte cc &&& m) := by
  obtain ⟨he, hf, hh, hi, hn, hz, hv, hc⟩ := ccByte_bits cc
  simp only [andCC, ccOfByte, BitVec.getLsbD_and, he, hf, hh, hi, hn, hz, hv, hc]

theorem orCC_eq (m : Byte) (cc : CC) : orCC m cc = ccOfByte (ccByte cc ||| m) := by
  obtain ⟨he, hf, hh, hi, hn, hz, hv, hc⟩ := ccByte_bits cc
  simp only [orCC, ccOfByte, BitVec.getLsbD_or, he, hf, hh, hi, hn, hz, hv, hc]

/-- ABX adds B as an unsigned number (R105). -/
theorem add_zext8 (w : Word) (b : Byte) : w + zext8 b = BitVec.ofNat 16 (w.toNat + b.toNat) := by
  rw [BitVec.ofNat_add, BitVec.ofNat_toNat, BitVec.setWidth_eq, BitVec.ofNat_toNat, zext8]

/-- Settles O24: ABX as a sum of numbers, ANDCC and ORCC on the byte of CC; the rest is how the instructions are defined. -/
theorem simpleInstructions : Obligations.SimpleInstructions := by
  refine ⟨⟨rfl, fun _ => rfl⟩, ⟨rfl, fun _ => rfl⟩, ⟨rfl, fun _ => rfl⟩, ⟨rfl, fun _ => rfl⟩,
    memForms_of_encodeMem fun _ _ => ⟨rfl, rfl⟩, fun _ => ⟨rfl, rfl, fun _ => ⟨rfl, rfl⟩⟩, ccByte_ccOfByte, ccByte_bits,
    fun s => ⟨?abx, rfl, rfl, rfl, fun _ => rfl, fun v => ⟨?andcc, ?orcc⟩⟩⟩
  case abx => simp only [exec, execAbx, add_zext8]
  case andcc => simp only [exec, execAndcc, andCC_eq]
  case orcc => simp only [exec, execOrcc, orCC_eq]

/-! ## Loads -/

theorem setNZ16V0_eq (r : Word) (cc : CC) :
    setNZ16V0 r cc = { cc with n := r.getLsbD 15, z := decide (r = 0), v := false } := by
  rw [setNZ16V0, setNZ16_eq]

theorem loadAcc_eq (r : Acc) (src : Src8) (s : State) :
    loadAcc r src s =
      let m := operand8 src s
      setAcc r m.1 { m.2 with cc := { s.cc with n := m.1.getLsbD 7, z := decide (m.1 = 0), v := false } } := by
  simp only [loadAcc, setNZ8V0_eq, operand8_cc]

theorem loadWord_eq (r : Reg16) (src : Src16) (s : State) :
    loadWord r src s =
      let m := operand16 src s
      loadReg16 r m.1 { m.2 with cc := { s.cc with n := m.1.getLsbD 15, z := decide (m.1 = 0), v := false } } := by
  simp only [loadWord, setNZ16V0_eq, operand16_cc]

/-- Settles O29: the operand goes to the register, D's halves by byte; NMI is armed by LDS. -/
theorem loads : Obligations.Loads := by
  refine ⟨?lda, ?ldb, ?ldd, ?lds, ?ldu, ?ldx, ?ldy, fun src s => ?byte, fun src s => ?word⟩
  case lda | ldb => exact src8Forms_of_encodeSrc8 fun _ _ => ⟨rfl, rfl⟩
  case ldd | lds | ldu | ldx | ldy => exact src16Forms_of_encodeSrc16 fun _ _ => ⟨rfl, rfl⟩
  case byte => simp only [exec, execLda, execLdb, loadAcc_eq, setAcc, and_self]
  case word =>
    simp only [exec, execLdd, execLds, execLdu, execLdx, execLdy, loadWord_eq, loadReg16, setD, loadS, hiByte_eq_setWidth,
      loByte_eq_setWidth, true_and, and_true]
    exact ⟨true, rfl⟩

end Sys2Proof.Machine
end

section
/-! PROOFS of 40_instructions_abx_to_ld: the entire frame in memory, and the interrupt instructions. -/

namespace Sys2Proof.Machine

/-! ## The entire frame -/

/-- The entire frame in memory order from an address upward: CC, A, B, DP, X, Y, U and PC, words high byte first (R276). -/
structure EntireFrameAt (addr : Word) (s t : State) : Prop where
  cc : cellByte (addr + BitVec.ofNat 16 0) t = ccByte s.cc
  a : cellByte (addr + BitVec.ofNat 16 1) t = s.a
  b : cellByte (addr + BitVec.ofNat 16 2) t = s.b
  dp : cellByte (addr + BitVec.ofNat 16 3) t = s.dp
  x : cellWord (addr + BitVec.ofNat 16 4) t = s.x
  y : cellWord (addr + BitVec.ofNat 16 6) t = s.y
  u : cellWord (addr + BitVec.ofNat 16 8) t = s.u
  pc : cellWord (addr + BitVec.ofNat 16 10) t = s.pc

/-- The bytes of the frame are the fields one after another. -/
theorem HeldAt.entireFrame {addr : Word} {s t : State} (h : HeldAt addr (frameBytes s) t) : EntireFrameAt addr s t where
  cc := h 0 _ rfl
  a := h 1 _ rfl
  b := h 2 _ rfl
  dp := h 3 _ rfl
  x := (h.part (before := [ccByte s.cc, s.a, s.b, s.dp])).word
  y := (h.part (before := [ccByte s.cc, s.a, s.b, s.dp] ++ wordBytes s.x)).word
  u := (h.part (before := [ccByte s.cc, s.a, s.b, s.dp] ++ wordBytes s.x ++ wordBytes s.y)).word
  pc := (h.part (before := [ccByte s.cc, s.a, s.b, s.dp] ++ wordBytes s.x ++ wordBytes s.y ++ wordBytes s.u)
    (behind := [])).word

/-- A frame lies in memory, whatever the other fields hold. -/
theorem EntireFrameAt.congr {addr : Word} {s t u : State} (h : EntireFrameAt addr s t) (hmem : u.mem = t.mem)
    (hmap : u.memMap = t.memMap) : EntireFrameAt addr s u := by
  obtain ⟨hcc, ha, hb, hdp, hx, hy, hu, hpc⟩ := h
  constructor <;> simpa only [cellByte_congr _ hmem hmap, cellWord_congr _ hmem hmap]

/-- The frame pushed onto a RAM stack lies at the new S, and only S and memory have changed. -/
theorem pushEntireFrame_ram {s : State} (h : RoomBelow 12 .s s) :
    EntireFrameAt (s.s - 12) s (pushEntireFrame s) ∧
      pushEntireFrame s = { s with s := s.s - 12, mem := (pushEntireFrame s).mem } := by
  rw [pushEntireFrame_eq_pushBytes]
  have hheld := heldAt_pushBytes (bytes := frameBytes s) h (show 12 < 65536 by decide)
  rw [getSp_pushBytes] at hheld
  obtain ⟨mem, hmem⟩ := pushBytes_ram (bytes := frameBytes s) h
  exact ⟨hheld.entireFrame, by rw [hmem]; rfl⟩

/-- The addresses below the old pointer are those from the new one upward. -/
theorem not_mem_below {a sp : Word} {n : Nat} (h : ∀ k, k < n → a ≠ sp - BitVec.ofNat 16 n + BitVec.ofNat 16 k) :
    a ∉ below sp n := by
  rw [mem_below]
  rintro ⟨k, hk1, hk, rfl⟩
  refine h (n - k) (by omega) ?_
  bv_omega

/-! ## The instructions -/

/-- The state whose frame CWAI pushes: the mask and-ed into CC, and E set (R135). -/
def cwaiMasked (mask : Byte) (s : State) : State := { s with cc := { ccOfByte (ccByte s.cc &&& mask) with e := true } }

theorem exec_cwai (mask : Byte) (s : State) :
    exec (.cwai mask) s = .next { pushEntireFrame (cwaiMasked mask s) with wait := .cwai } := by
  simp only [exec, execCwai, setE, cwaiMasked, andCC_eq]

/-- Settles O46: an SWI at no wait is its entry; CWAI's frame lies below S, and its stores are that frame. -/
theorem interruptInstructions : Obligations.InterruptInstructions := by
  refine ⟨⟨⟨rfl, fun _ => rfl⟩, ⟨rfl, fun _ => rfl⟩, ⟨rfl, fun _ => rfl⟩, fun s hw => ?swi⟩, fun _ _ => ⟨rfl, rfl⟩,
    ⟨rfl, fun _ => rfl⟩, fun _ => rfl, fun mask s => ⟨_, exec_cwai mask s, rfl, fun hroom => ?cwai⟩⟩
  case swi =>
    have hs : { s with wait := .none } = s := by rw [← hw]
    simp only [exec, execSwi, execSwi2, execSwi3, hs, and_self]
  case cwai =>
    have hother := (storesOnly_cwai mask (exec_cwai mask s)).other
    obtain ⟨hpushed, hrest⟩ := pushEntireFrame_ram (s := cwaiMasked mask s) hroom
    generalize pushEntireFrame (cwaiMasked mask s) = t at hother hpushed hrest ⊢
    have hframe := hpushed.congr (u := { t with wait := .cwai }) rfl rfl
    refine ⟨?_, hframe.cc, hframe.a, hframe.b, hframe.dp, hframe.x, hframe.y, hframe.u, hframe.pc,
      fun a ha => hother a (not_mem_below ha)⟩
    rw [hrest]
    rfl

end Sys2Proof.Machine
end

section
/-! PROOFS of 41_instructions_lea_to_tst: the stores, the load of an effective address, and RTI. -/

namespace Sys2Proof.Machine

/-! ## Stores -/

/-- D is the number that its halves make. -/
theorem regD_eq_ofNat (s : State) : regD s = BitVec.ofNat 16 (256 * s.a.toNat + s.b.toNat) := by
  rw [← toNat_catBytes, BitVec.ofNat_toNat, BitVec.setWidth_eq, regD]

theorem storeAcc_eq (r : Acc) (m : MemOperand) (s : State) :
    storeAcc r m s =
      let ea := effectiveAddress m s
      let v := getAcc r s
      writeByte ea.1 v { ea.2 with cc := { s.cc with n := v.getLsbD 7, z := decide (v = 0), v := false } } := by
  simp only [storeAcc, setNZ8V0_eq, getAcc_effectiveAddress, effectiveAddress_cc]

/-- The register is the one that an auto-increment or auto-decrement of the address has left. -/
theorem storeWord_eq (r : Reg16) (m : MemOperand) (s : State) :
    storeWord r m s =
      let ea := effectiveAddress m s
      let v := getReg16 r ea.2
      writeWord ea.1 v { ea.2 with cc := { s.cc with n := v.getLsbD 15, z := decide (v = 0), v := false } } := by
  simp only [storeWord, setNZ16V0_eq, effectiveAddress_cc]

/-- Settles O30: a byte or a word of the register is stored with its N and Z; computing the address leaves D as it was. -/
theorem stores : Obligations.Stores := by
  refine ⟨?sta, ?stb, ?std, ?sts, ?stu, ?stx, ?sty, fun m s => ?_⟩
  case sta | stb | std | sts | stu | stx | sty => exact memForms_of_encodeMem fun _ _ => ⟨rfl, rfl⟩
  intro ea byte word
  have hd : getReg16 .d ea.2 = BitVec.ofNat 16 (256 * s.a.toNat + s.b.toNat) :=
    (regD_effectiveAddress m s).trans (regD_eq_ofNat s)
  have hbyte : ∀ r, storeAcc r m s = byte (getAcc r s) := fun r => storeAcc_eq r m s
  have hword : ∀ r, storeWord r m s = word (getReg16 r ea.2) := fun r => storeWord_eq r m s
  rw [← hd]
  exact ⟨congrArg _ (hbyte .a), congrArg _ (hbyte .b), congrArg _ (hword .d), congrArg _ (hword .s), congrArg _ (hword .u),
    congrArg _ (hword .x), congrArg _ (hword .y)⟩

/-! ## Effective addresses as values -/

/-- Settles O31: the address computation keeps CC, so Z is the only flag that changes. -/
theorem loadEffectiveAddress : Obligations.LoadEffectiveAddress := by
  refine ⟨fun m => ⟨rfl, rfl, rfl, rfl, fun s i hi => ?cycles⟩, fun m s => ?_⟩
  case cycles =>
    simp only [List.mem_cons, List.not_mem_nil, or_false] at hi
    rcases hi with rfl | rfl | rfl | rfl <;> rfl
  simp only [exec, execLeax, execLeay, execLeas, execLeau, loadS, indexedAddress_cc, beq_eq_decide, and_self]

/-! ## RTI -/

/-- The registers that the bits of the longest list load lie one behind the other (R83). -/
theorem loadBits_entire (s : State) :
    loadBits .s 0xFF s 8 = { s with
      cc := ccOfByte (cellByte (s.s + BitVec.ofNat 16 0) s), a := cellByte (s.s + BitVec.ofNat 16 1) s
      b := cellByte (s.s + BitVec.ofNat 16 2) s, dp := cellByte (s.s + BitVec.ofNat 16 3) s
      x := cellWord (s.s + BitVec.ofNat 16 4) s, y := cellWord (s.s + BitVec.ofNat 16 6) s
      u := cellWord (s.s + BitVec.ofNat 16 8) s, pc := cellWord (s.s + BitVec.ofNat 16 10) s } := by
  simp only [loadBits, loadBit]
  rfl

theorem loadBits_short (s : State) :
    loadBits .s 0x81 s 8 = { s with
      cc := ccOfByte (cellByte (s.s + BitVec.ofNat 16 0) s), pc := cellWord (s.s + BitVec.ofNat 16 1) s } := by
  simp only [loadBits, loadBit]
  rfl

/-- The register list of the frame that RTI pulls: every register if the pulled E is 1, else CC and PC (R83, R188). -/
def frameList (e : Bool) : Byte := if e then 0xFF else 0x81

/-- RTI pulls the register list that the E of the CC it pulls first selects (R188). -/
theorem returnFromInterrupt_eq_pullList (s : State) :
    returnFromInterrupt s = pullList .s (frameList (pullCC .s s).cc.e) s := by
  unfold returnFromInterrupt
  generalize he : (pullCC .s s).cc.e = e
  cases e <;> simp [pullList, doIf, pullRest, frameList, he]

/-- The cycles of RTI, too, are those of the frame that the pulled E selects (R188). -/
theorem cycles_rti (s : State) : cycles .rti s = if (pullCC .s s).cc.e then 15 else 6 := rfl

end Sys2Proof.Machine

/-! The model has a `Machine.returnFromInterrupt` of its own, so the theorem of this name stands outside of `Machine`. -/

namespace Sys2Proof

open Machine

/-- Settles O44: the frame is pulled as the register list that the E of its first byte selects. -/
theorem returnFromInterrupt : Obligations.ReturnFromInterrupt := by
  refine ⟨rfl, fun s hplain => ?_⟩
  intro byteAt wordAt cc
  have hfirst : Plain (getSp .s s) s := by simpa using hplain 0 (by decide)
  have hbyte : cellByte (getSp .s s) s = byteAt 0 := by simp [byteAt, getSp]
  have hcc : (pullCC .s s).cc = cc := by rw [pullCC, pull8_cell hfirst, hbyte]
  have hframe : PlainAbove (listBytes (frameList cc.e)) .s s := fun k hk => hplain k (hk.trans_le (listBytes_le _))
  have hnext : exec .rti s = .next (setSp .s (getSp .s s + BitVec.ofNat 16 (listBytes (frameList cc.e)))
      (loadBits .s (frameList cc.e) s 8)) := by
    simp only [exec, execRti, returnFromInterrupt_eq_pullList, hcc, pullList_cell hframe]
  refine ⟨hnext.trans ?_, by rw [cycles_rti, hcc]⟩
  cases cc.e with
  | true => rw [frameList, if_pos rfl, loadBits_entire]; rfl
  | false => rw [frameList, if_neg Bool.false_ne_true, loadBits_short]; rfl

end Sys2Proof
end

section
/-! PROOFS of 42_branches: the conditions of the table and where a branch goes. -/

namespace Sys2Proof.Machine

/-- The column "Branch if" of R222 as a relation between the flags. -/
def ConditionMet : Cond → CC → Prop
  | .always, _ => True
  | .never, _ => False
  | .hi, f => f.c = false ∧ f.z = false
  | .ls, f => f.c = true ∨ f.z = true
  | .cc, f => f.c = false
  | .cs, f => f.c = true
  | .ne, f => f.z = false
  | .eq, f => f.z = true
  | .vc, f => f.v = false
  | .vs, f => f.v = true
  | .pl, f => f.n = false
  | .mi, f => f.n = true
  | .ge, f => f.n = f.v
  | .lt, f => f.n ≠ f.v
  | .gt, f => f.z = false ∧ f.n = f.v
  | .le, f => f.z = true ∨ f.n ≠ f.v

/-- The exclusive or of N and V, which the signed conditions ask for, says whether the two differ. -/
theorem holds_iff (c : Cond) (f : CC) : holds c f = true ↔ ConditionMet c f := by
  have hsigned : (f.n ^^ f.v) = false ↔ f.n = f.v := bne_eq_false_iff_eq
  cases c with
  | always | never => simp only [holds, ConditionMet, Bool.false_eq_true]
  | cc | cs | ne | eq | vc | vs | pl | mi => simp only [holds, ConditionMet, Bool.not_eq_true']
  | hi | ls => simp only [holds, ConditionMet, Bool.not_eq_true', Bool.or_eq_true, Bool.or_eq_false_iff]
  | ge | lt | gt | le =>
    simp only [holds, ConditionMet, Bool.not_eq_true', Bool.or_eq_true, Bool.or_eq_false_iff, Bool.xor_iff_ne, hsigned]

/-- A branch goes to its target where its condition is met and else leaves the state alone (R221). -/
theorem next_branchIf {off target : Word} {s : State} (htarget : target = s.pc + off) (c : Cond)
    {_ : Decidable (ConditionMet c s.cc)} :
    (Host.Outcome.next (branchIf c off s) : Result) = .next (if ConditionMet c s.cc then { s with pc := target } else s) := by
  simp only [branchIf, holds_iff, htarget]

/-- Settles O34: short or long, with a condition or none, a branch is one `branchIf`. -/
theorem branches : Obligations.Branches := by
  refine ⟨⟨?encoding, fun _ _ => ⟨rfl, rfl⟩⟩, fun off s => ⟨?bra, rfl, ?short⟩, fun off s => ⟨?lbra, rfl, ?long⟩⟩
  case encoding =>
    rw [← List.forall_iff_forall_mem]
    and_intros <;> exact fun _ _ => ⟨rfl, rfl⟩
  case bra => rw [ofInt_toNat_add_toInt]; rfl
  case short => and_intros <;> exact next_branchIf (ofInt_toNat_add_toInt s.pc off) _
  case lbra => rfl
  case long => and_intros <;> exact next_branchIf (BitVec.add_def s.pc off).symm _

end Sys2Proof.Machine
end

section
/-! PROOFS of 60_exceptions: what a boundary does with its inputs, and the entry of an interrupt and the return from it. -/

namespace Sys2Proof.Machine

/-! ## The inputs of a boundary -/

/-- A boundary accepts a pending NMI, else an unmasked FIRQ, else an unmasked IRQ (R272, R275). -/
theorem acceptedInterrupt_eq (s : State) :
    acceptedInterrupt s =
      if s.nmiPending = true ∧ s.nmiArmed = true then some .nmi
      else if s.firqLine = true ∧ s.cc.f = false then some .firq
      else if s.irqLine = true ∧ s.cc.i = false then some .irq
      else none := by
  simp only [acceptedInterrupt, Bool.and_eq_true, Bool.not_eq_true']

/-- Only the three hardware interrupts are accepted at a boundary. -/
theorem hardware_of_acceptedInterrupt {s : State} {k : Interrupt} (h : acceptedInterrupt s = some k) :
    k = .nmi ∨ k = .firq ∨ k = .irq := by
  rw [acceptedInterrupt_eq] at h
  split_ifs at h <;> cases h <;> simp

theorem syncEnds_iff (s : State) :
    syncEnds s = true ↔ (s.nmiPending = true ∧ s.nmiArmed = true) ∨ s.firqLine = true ∨ s.irqLine = true := by
  simp only [syncEnds, Bool.or_eq_true, Bool.and_eq_true, or_assoc]

/-- Without an input the boundary acts on the lines as they are. -/
theorem nextAction_noInput {s : State} (h : s.inputs = []) : nextAction s = boundaryAction s := by
  simp only [nextAction, h]

theorem nextAction_input {s : State} {inp : BoundaryInput} {rest : List BoundaryInput} (h : s.inputs = inp :: rest) :
    nextAction s = if inp.reset then .become (resetEntry (takeInput inp rest s)) else boundaryAction (takeInput inp rest s) := by
  simp only [nextAction, h]

/-- Where a boundary without an input starts no instruction, the step ends with it. -/
theorem step_become {s t : State} (h : s.inputs = []) (ht : boundaryAction s = .become t) : step s = .next t := by
  simp only [step_noInput h, carryOut, nextAction_noInput h, ht]

/-- An accepted interrupt is entered in a step of its own (R272). -/
theorem step_accepted {s : State} {k : Interrupt} (h : s.inputs = []) (hk : acceptedInterrupt s = some k) :
    step s = .next (raiseInterrupt k s) :=
  step_become h (by simp only [boundaryAction, hk])

/-- Settles O42: each input is accepted where none of a higher priority is. -/
theorem boundaryPriority : Obligations.BoundaryPriority := by
  intro s hinputs nmi firq irq
  have haccepted : acceptedInterrupt s = if nmi then some .nmi else if firq then some .firq else if irq then some .irq else none :=
    acceptedInterrupt_eq s
  refine ⟨fun h1 => step_accepted hinputs ?_, fun h1 h2 => step_accepted hinputs ?_, fun h1 h2 h3 => step_accepted hinputs ?_,
    fun h1 h2 h3 hwait i t rest hfetch => step_running_ok ⟨hinputs, ?_, hwait⟩ hfetch⟩
  · rw [haccepted, if_pos h1]
  · rw [haccepted, if_neg h1, if_pos h2]
  · rw [haccepted, if_neg h1, if_neg h2, if_pos h3]
  · rw [haccepted, if_neg h1, if_neg h2, if_neg h3]

/-- RESET at a boundary overrides everything that the boundary would start, a RESET in the middle of it too (R331). -/
theorem step_reset {s : State} {inp : BoundaryInput} {rest : List BoundaryInput} (h : s.inputs = inp :: rest)
    (hreset : inp.reset = true) : step s = .next (resetEntry (takeInput inp rest s)) := by
  have hfinish : ∀ t, finishStep s t = t := fun t => by simp only [finishStep, h, hreset]
  simp only [step, carryOut, nextAction_input h, hreset, if_true, hfinish]

/-- The events of a boundary leave the CPU, its lines and the inputs to come as they are. -/
@[simp] theorem applyEvents_nmiArmed (es : List DeviceEvent) (s : State) : (applyEvents es s).nmiArmed = s.nmiArmed := by
  rw [applyEvents_frame]
@[simp] theorem applyEvents_nmiPending (es : List DeviceEvent) (s : State) : (applyEvents es s).nmiPending = s.nmiPending := by
  rw [applyEvents_frame]
@[simp] theorem applyEvents_nmiLine (es : List DeviceEvent) (s : State) : (applyEvents es s).nmiLine = s.nmiLine := by
  rw [applyEvents_frame]
@[simp] theorem applyEvents_inputs (es : List DeviceEvent) (s : State) : (applyEvents es s).inputs = s.inputs := by
  rw [applyEvents_frame]

/-- An edge is latched where NMI is armed, the line was inactive and is now active (R272, R273). -/
theorem takeInput_nmiPending (inp : BoundaryInput) (rest : List BoundaryInput) (s : State) :
    (takeInput inp rest s).nmiPending = true ↔
      s.nmiPending = true ∨ (s.nmiArmed = true ∧ s.nmiLine = false ∧ inp.nmi = true) := by
  simp only [takeInput, latchLines, applyEvents_nmiPending, applyEvents_nmiArmed, applyEvents_nmiLine, Bool.or_eq_true,
    Bool.and_eq_true, Bool.not_eq_true', and_assoc, and_comm (a := inp.nmi = true)]

/-- Settles O43: the events leave the lines and the NMI latch to the levels that follow them. -/
theorem boundaryInputs : Obligations.BoundaryInputs := by
  intro inp rest s hinputs t before
  refine ⟨rfl, rfl, rfl, applyEvents_inputs _ _, takeInput_nmiPending inp rest s, rfl, step_reset hinputs,
    fun hreset hduring => ?_⟩
  have hnext : nextAction s = boundaryAction t :=
    (nextAction_input hinputs).trans (if_neg (Bool.eq_false_iff.mp hreset))
  cases haction : boundaryAction t with
  | become | run | refuse => exact (step_whole hinputs hduring).trans (by simp only [carryOut, hnext, haction])

/-! ## The entry -/

/-- What an entry does beside stacking (R276 to R281, R287). -/
theorem enterHandler_eq (k : Interrupt) (s : State) :
    enterHandler k s = { s with
      wait := .none
      nmiPending := if k = .nmi then false else s.nmiPending
      cc := { s.cc with
        i := s.cc.i || decide (k ≠ .swi2 ∧ k ≠ .swi3), f := s.cc.f || decide (k = .nmi ∨ k = .firq ∨ k = .swi) } } := by
  cases k <;> simp [enterHandler, maskFor]

@[simp] theorem stackFor_memMap (k : Interrupt) (s : State) : (stackFor k s).memMap = s.memMap := by
  unfold stackFor
  split
  · rfl
  · split <;> simp [pushShortFrame, pushEntireFrame]

/-- With the vector in RAM or ROM, an entry loads PC with it and reads nothing else (R274). -/
theorem raiseInterrupt_cell {k : Interrupt} {s : State} (h : Plain (vectorOf k) s) (h' : Plain (vectorOf k + 1) s) :
    raiseInterrupt k s = { enterHandler k (stackFor k s) with pc := cellWord (vectorOf k) (stackFor k s) } := by
  have hmap : (enterHandler k (stackFor k s)).memMap = s.memMap := stackFor_memMap k s
  rw [raiseInterrupt, jumpThrough, readWord_cell ((plain_congr hmap).mpr h) ((plain_congr hmap).mpr h')]
  rfl

/-- Settles O40: an entry and a RESET are jumps through their vectors. -/
theorem vectorTable : Obligations.VectorTable := by
  refine ⟨rfl, rfl, rfl, rfl, rfl, rfl, rfl, fun _ _ => rfl, fun _ => rfl, fun a s h h' => ?_⟩
  rw [readWord_cell h h', cellWord, catBytes_eq_ofNat]

/-! ## Waiting -/

/-- After CWAI nothing more is stacked (R285). -/
theorem stackFor_cwai (k : Interrupt) {s : State} (h : s.wait = .cwai) : stackFor k s = s := by
  unfold stackFor
  rw [h]

/-- Settles O47: out of CWAI an entry stacks nothing; a wait that no interrupt ends is a step that starts nothing. -/
theorem waiting : Obligations.Waiting := by
  refine fun s hinputs => ⟨fun k hwait hk hplain hplain' => ?_, fun hwait hnone => ?_, fun hwait hnone => ?_,
    fun k _ hk => step_accepted hinputs hk⟩
  · rw [step_accepted hinputs hk, raiseInterrupt_cell hplain hplain', stackFor_cwai k hwait, enterHandler_eq]
    rcases hardware_of_acceptedInterrupt hk with rfl | rfl | rfl <;> simp
  · exact step_become hinputs (by simp only [boundaryAction, hnone, hwait])
  · refine step_become hinputs ?_
    simp only [boundaryAction, hnone, hwait, syncEnds_iff]

/-! ## The frame of an entry -/

theorem pushEntireFrame_eq_pushList (s : State) : pushEntireFrame s = pushList .s (frameList true) s := by
  simp [pushEntireFrame, pushList, doIf, frameList, getSp, otherSp]

theorem pushShortFrame_eq_pushList (s : State) : pushShortFrame s = pushList .s (frameList false) s := by
  simp [pushShortFrame, pushList, doIf, frameList]

/-- How many bytes an entry stacks: 3 for a FIRQ, else 12 (R276, R282). -/
def entrySize (k : Interrupt) : Nat := if k = .firq then 3 else 12

/-- The register list of the frame that an entry stacks (R83, R276). -/
def entryList (k : Interrupt) : Byte := frameList (decide (k ≠ .firq))

/-- The state whose registers an entry stacks: E is written before, as the kind says (R276). -/
def stackedState (k : Interrupt) (s : State) : State := setE (decide (k ≠ .firq)) s

theorem listBytes_entryList (k : Interrupt) : listBytes (entryList k) = entrySize k := by cases k <;> rfl

theorem entrySize_le (k : Interrupt) : entrySize k ≤ 12 := (listBytes_entryList k).symm.trans_le (listBytes_le _)

/-- An entry out of no CWAI stacks a register list: every register with E set, for a FIRQ CC and PC with E clear (R276). -/
theorem stackFor_eq_pushList (k : Interrupt) {s : State} (h : s.wait ≠ .cwai) :
    stackFor k s = pushList .s (entryList k) (stackedState k s) := by
  unfold stackFor
  split
  next hw => exact absurd hw h
  next =>
    cases k with
    | firq => exact pushShortFrame_eq_pushList _
    | nmi | irq | swi | swi2 | swi3 => exact pushEntireFrame_eq_pushList _

/-- What an entry onto a RAM stack starts from: no CWAI, RAM below S, and the vector in RAM or ROM. -/
structure EntersOnRam (k : Interrupt) (s : State) : Prop where
  notCwai : s.wait ≠ .cwai
  room : RoomBelow 12 .s s
  vectorHigh : Plain (vectorOf k) s
  vectorLow : Plain (vectorOf k + 1) s

section Entry
variable {k : Interrupt} {s : State}

/-- Onto a RAM stack the entry moves S and stores the frame, and nothing else. -/
theorem stackFor_ram (h : EntersOnRam k s) :
    stackFor k s = { stackedState k s with s := s.s - BitVec.ofNat 16 (entrySize k), mem := (stackFor k s).mem } := by
  have hram := pushList_ram (p := .s) (list := entryList k) (s := stackedState k s) h.room
  rw [getSp_pushList, listBytes_entryList] at hram
  rw [stackFor_eq_pushList k h.notCwai]
  exact hram

/-- The state that the entry leaves, its memory apart. -/
theorem raiseInterrupt_ram (h : EntersOnRam k s) :
    raiseInterrupt k s = { enterHandler k (stackedState k s) with
      s := s.s - BitVec.ofNat 16 (entrySize k), mem := (raiseInterrupt k s).mem
      pc := cellWord (vectorOf k) (raiseInterrupt k s) } := by
  have hstack := stackFor_ram h
  rw [raiseInterrupt_cell h.vectorHigh h.vectorLow]
  generalize stackFor k s = t at hstack ⊢
  rw [hstack, enterHandler_eq, enterHandler_eq]
  rfl

theorem raiseInterrupt_s (h : EntersOnRam k s) : (raiseInterrupt k s).s = s.s - BitVec.ofNat 16 (entrySize k) := by
  rw [raiseInterrupt_ram h]

/-- Once the frame is stacked, memory stays as it is. -/
theorem raiseInterrupt_memory (h : EntersOnRam k s) : SameMemory (stackFor k s) (raiseInterrupt k s) := by
  rw [raiseInterrupt_cell h.vectorHigh h.vectorLow]
  exact ⟨rfl, rfl⟩

/-- The bytes of the frame are the only ones that an entry stores. -/
theorem cellByte_raiseInterrupt_other (h : EntersOnRam k s) {a : Word} (ha : a ∉ below s.s (entrySize k)) :
    cellByte a (raiseInterrupt k s) = cellByte a s := by
  obtain ⟨hmem, hmap⟩ := raiseInterrupt_memory h
  rw [← listBytes_entryList] at ha
  rw [cellByte_congr a hmem hmap, stackFor_eq_pushList k h.notCwai]
  exact cellByte_pushList_other (p := .s) (s := stackedState k s) ha

/-- The register of bit j lies in the frame where the frame's list places it. -/
theorem heldAt_raiseInterrupt (h : EntersOnRam k s) {j : Nat} (hj : j < 8) (hbit : (entryList k).getLsbD j = true) :
    HeldAt (s.s - BitVec.ofNat 16 (entrySize k) + BitVec.ofNat 16 (listOffset (entryList k) j))
      (bitRegister .s (stackedState k s) j) (raiseInterrupt k s) := by
  obtain ⟨hmem, hmap⟩ := raiseInterrupt_memory h
  have hheld := heldAt_pushList (p := .s) (s := stackedState k s) h.room hj hbit
  rw [getSp_pushList, listBytes_entryList, ← stackFor_eq_pushList k h.notCwai] at hheld
  exact fun i b hb => (cellByte_congr _ hmem hmap).trans (hheld i b hb)

/-- The frame that an entry leaves at S lies in the room below the old S. -/
theorem plainAbove_raiseInterrupt (h : EntersOnRam k s) : PlainAbove (entrySize k) .s (raiseInterrupt k s) := by
  intro n hn
  have hsize := entrySize_le k
  have haddr : s.s - BitVec.ofNat 16 (entrySize k) + BitVec.ofNat 16 n = s.s - BitVec.ofNat 16 (entrySize k - n) := by bv_omega
  rw [raiseInterrupt_ram h]
  exact .inl (haddr ▸ h.room (entrySize k - n) (by omega) (by omega))

end Entry

/-- Settles O41: the entry stacks a register list, and `enterHandler` does the rest. -/
theorem interruptEntry : Obligations.InterruptEntry := by
  intro k s hw hroom hplain hplain' t size stacked sp byteAt word
  have h : EntersOnRam k s := ⟨hw, hroom, hplain, hplain'⟩
  have held := fun {j} => heldAt_raiseInterrupt (j := j) h
  refine ⟨?state, ?cc, ?registers, fun a ha => cellByte_raiseInterrupt_other h (not_mem_below ha)⟩
  case state => exact (raiseInterrupt_ram h).trans (by rw [enterHandler_eq]; rfl)
  case cc => cases k <;> exact (held (j := 0) (by decide) (by decide)).byte
  case registers =>
    cases k with
    | firq => exact (held (j := 7) (by decide) (by decide)).word
    | nmi | irq | swi | swi2 | swi3 =>
      exact ⟨(held (j := 1) (by decide) (by decide)).byte, (held (j := 2) (by decide) (by decide)).byte,
        (held (j := 3) (by decide) (by decide)).byte, (held (j := 4) (by decide) (by decide)).word,
        (held (j := 5) (by decide) (by decide)).word, (held (j := 6) (by decide) (by decide)).word,
        (held (j := 7) (by decide) (by decide)).word⟩

/-! ## The return -/

/-- RTI through a frame in RAM or ROM, of the kind that its first byte says (R188). -/
theorem exec_rti_cell {e : Bool} {s : State} (he : (ccOfByte (cellByte s.s s)).e = e)
    (hplain : PlainAbove (listBytes (frameList e)) .s s) :
    exec .rti s = .next (setSp .s (s.s + BitVec.ofNat 16 (listBytes (frameList e))) (loadBits .s (frameList e) s 8)) := by
  have hfirst : Plain (getSp .s s) s := by simpa using hplain 0 (by cases e <;> decide)
  have hcc : (pullCC .s s).cc.e = e := by rw [pullCC, pull8_cell hfirst]; exact he
  simp only [exec, execRti, returnFromInterrupt_eq_pullList, hcc, pullList_cell hplain]
  rfl

/-- RTI loads CC and PC from either frame, whatever they held. -/
theorem loadBits_entryList_congr (k : Interrupt) (cc : CC) (pc : Word) (s : State) :
    loadBits .s (entryList k) { s with cc, pc } 8 = loadBits .s (entryList k) s 8 := by
  cases k with
  | firq => exact (loadBits_short _).trans (loadBits_short s).symm
  | nmi | irq | swi | swi2 | swi3 => exact (loadBits_entire _).trans (loadBits_entire s).symm

section Return
variable {k : Interrupt} {s : State}

/-- The CC that RTI pulls first after an entry is the stacked one, whose E tells it the frame (R284). -/
theorem ccOfByte_raiseInterrupt (h : EntersOnRam k s) :
    ccOfByte (cellByte (raiseInterrupt k s).s (raiseInterrupt k s)) = (stackedState k s).cc := by
  have hheld := heldAt_raiseInterrupt (j := 0) h (by decide) (by cases k <;> rfl)
  rw [listOffset_zero, BitVec.add_zero, ← raiseInterrupt_s h] at hheld
  rw [hheld.byte, ccOfByte_ccByte]

/-- After an entry RTI loads CC and PC as the entry has stacked them; the other registers hold already what it loads. -/
theorem loadBits_raiseInterrupt (h : EntersOnRam k s) :
    loadBits .s (entryList k) (raiseInterrupt k s) 8 =
      { raiseInterrupt k s with cc := (stackedState k s).cc, pc := s.pc } := by
  have hregisters : ∀ j, bitRegister .s { raiseInterrupt k s with cc := (stackedState k s).cc, pc := s.pc } j =
      bitRegister .s (stackedState k s) j := fun j => by
    rw [raiseInterrupt_ram h]
    unfold bitRegister
    split <;> rfl
  rw [← loadBits_entryList_congr k (stackedState k s).cc s.pc, loadBits_same (fun j hj hbit => ?_) le_rfl]
  · exact armIf_false _
  · rw [hregisters, getSp, raiseInterrupt_s h]
    exact heldAt_raiseInterrupt h hj hbit

/-- RTI right after an entry restores S, and CC and PC as the entry has stacked them. -/
theorem exec_rti_raiseInterrupt (h : EntersOnRam k s) :
    exec .rti (raiseInterrupt k s) =
      .next { raiseInterrupt k s with cc := (stackedState k s).cc, pc := s.pc, s := s.s } := by
  have he : (ccOfByte (cellByte (raiseInterrupt k s).s (raiseInterrupt k s))).e = decide (k ≠ .firq) := by
    rw [ccOfByte_raiseInterrupt h]
    rfl
  have hplain := plainAbove_raiseInterrupt h
  rw [← listBytes_entryList] at hplain
  rw [exec_rti_cell he hplain, ← entryList, listBytes_entryList, loadBits_raiseInterrupt h, raiseInterrupt_s h,
    BitVec.sub_add_cancel]
  rfl

end Return

/-- Settles O45: RTI loads the registers from the frame in which the entry has put them. -/
theorem entryThenReturn : Obligations.EntryThenReturn := by
  intro k s hw hroom hplain hplain'
  have h : EntersOnRam k s := ⟨by rw [hw]; decide, hroom, hplain, hplain'⟩
  refine ⟨?returned, fun a ha => cellByte_raiseInterrupt_other h fun hbelow => ?other⟩
  case returned =>
    have hstate := raiseInterrupt_ram h
    rw [exec_rti_raiseInterrupt h]
    rw [enterHandler_eq] at hstate
    generalize (raiseInterrupt k s).mem = mem at hstate ⊢
    rw [hstate]
    simp [stackedState, setE, hw]
  case other =>
    obtain ⟨n, h1, hn, rfl⟩ := mem_below.mp hbelow
    exact ha n h1 hn rfl

end Sys2Proof.Machine
end

section
/-! PROOFS of 60_exceptions: the registers, lines and interrupts of the MC6821. -/

namespace Sys2Proof.Machine

/-! ## The ports -/

@[simp] theorem portOf_setPort (p : PortName) (v : PiaPort) (s : State) : portOf p (setPort p v s) = v := by cases p <;> rfl

/-- A port's registers are part of no memory. -/
theorem sameMemory_setPort (p : PortName) (v : PiaPort) (s : State) : SameMemory s (setPort p v s) := by
  cases p <;> exact ⟨rfl, rfl⟩

/-- Bit 2 of the control register selects the register that the data address writes (R294). -/
theorem writePiaData_eq (p : PortName) (v : Byte) (s : State) :
    writePiaData p v s =
      setPort p (if (portOf p s).ctrl.getLsbD 2 then { portOf p s with latch := v } else { portOf p s with ddr := v }) s := by
  unfold writePiaData
  split
  next h => rw [if_pos h]
  next h => rw [if_neg h]

/-- It selects the register that the data address reads; only a read of the data register has an effect (R294, R295). -/
theorem readPiaData_ddr {p : PortName} {s : State} (h : (portOf p s).ctrl.getLsbD 2 = false) :
    readPiaData p s = ((portOf p s).ddr, s) := by
  simp only [readPiaData, h, Bool.false_eq_true, if_false]

theorem readPiaData_data {p : PortName} {s : State} (h : (portOf p s).ctrl.getLsbD 2 = true) :
    ∃ free t, SameMemory s t ∧ readPiaData p s =
      (((portOf p s).pins &&& ~~~(portOf p s).ddr) ||| (outputLines p (portOf p s) free &&& (portOf p s).ddr),
        setPort p { portOf p s with irq1 := false, irq2 := false } t) := by
  simp only [readPiaData, h, if_true]
  cases p with
  | a => exact ⟨_, nextDraw s, ⟨rfl, rfl⟩, rfl⟩
  | b => exact ⟨_, s, ⟨rfl, rfl⟩, rfl⟩

/-- Each line is taken from one byte or the other by the bit of a mask. -/
theorem getLsbD_select (ins outs mask : Byte) {k : Nat} (hk : k < 8) :
    ((ins &&& ~~~mask) ||| (outs &&& mask)).getLsbD k = if mask.getLsbD k then outs.getLsbD k else ins.getLsbD k := by
  simp only [BitVec.getLsbD_or, BitVec.getLsbD_and, BitVec.getLsbD_not, hk, decide_true, Bool.true_and]
  cases mask.getLsbD k <;> simp

/-- The control register as it reads: the flags on bits 7 and 6, the six stored bits below (R295). -/
theorem controlByte_bits (p : PiaPort) :
    (controlByte p).getLsbD 7 = p.irq1 ∧ (controlByte p).getLsbD 6 = (p.irq2 && !p.ctrl.getLsbD 5) ∧
      ∀ k, k < 6 → (controlByte p).getLsbD k = p.ctrl.getLsbD k := by
  simp only [controlByte, BitVec.getLsbD_append]
  exact ⟨by simp, by simp, fun k hk => if_pos hk⟩

/-- The data address of a port; the next one is its control address (R292). -/
def portAddress : PortName → Word
  | .a => 0xF000
  | .b => 0xF002

theorem deviceAt_portAddress (p : PortName) :
    deviceAt (portAddress p) = some (.piaData p) ∧ deviceAt (portAddress p + 1) = some (.piaControl p) := by
  cases p <;> exact ⟨rfl, rfl⟩

/-- Settles O56: at a port's addresses the port answers, by bit 2 of its control register. -/
theorem parallelPort : Obligations.ParallelPort := by
  intro p v s₀ s data control port written controlled r
  obtain ⟨hdata, hcontrol⟩ := deviceAt_portAddress p
  have hwrite : writeByte data v s₀ = writePiaData p v s := writeByte_device hdata v s₀
  have hread : r = readPiaData p s := readByte_device hdata s₀
  have hreadControl : readByte control s₀ = (controlByte port, s) := readByte_device hcontrol s₀
  have hcontrolled : controlled = { port with ctrl := v.setWidth 6 } :=
    (congrArg (portOf p) (writeByte_device hcontrol v s₀)).trans (portOf_setPort p _ s)
  have hwritten : written = if port.ctrl.getLsbD 2 then { port with latch := v } else { port with ddr := v } :=
    (congrArg (portOf p) (hwrite.trans (writePiaData_eq p v s))).trans (portOf_setPort p _ s)
  refine ⟨fun hddr => ?ddr, fun hsel => ?data, ⟨_, hreadControl, controlByte_bits port⟩, ?controlled,
    fun k hk => ?bits, ?write, ?read⟩
  case ddr => exact ⟨by rw [hwritten, hddr]; rfl, hread.trans (readPiaData_ddr hddr)⟩
  case data =>
    obtain ⟨free, t, -, hr⟩ := readPiaData_data hsel
    rw [hread, hr]
    refine ⟨hwritten.trans (if_pos hsel), portOf_setPort p _ t, fun k hk hin => ?_, fun hb k hk hout => ?_⟩
    · rw [getLsbD_select _ _ _ hk, hin]
      rfl
    · subst hb
      rw [getLsbD_select _ _ _ hk, hout]
      rfl
  case controlled => rw [hcontrolled]
  case bits => simp [hcontrolled, hk]
  case write =>
    rw [hwrite, writePiaData_eq]
    exact sameMemory_setPort p _ s
  case read =>
    rw [hread]
    cases hsel : port.ctrl.getLsbD 2 with
    | false => rw [readPiaData_ddr hsel]; exact ⟨rfl, rfl⟩
    | true =>
      obtain ⟨_, t, ⟨hmem, hmap⟩, hr⟩ := readPiaData_data hsel
      obtain ⟨hmem', hmap'⟩ := sameMemory_setPort p { port with irq1 := false, irq2 := false } t
      rw [hr]
      exact ⟨hmem'.trans hmem, hmap'.trans hmap⟩

/-! ## The lines from outside -/

theorem activeEdge_iff (rising old new : Bool) : activeEdge rising old new = true ↔ old ≠ new ∧ new = rising := by
  simp [activeEdge]

/-- Settles O57: the two lines drive their flags, and the outputs are functions of the port. -/
theorem parallelPortInterrupts : Obligations.ParallelPortInterrupts := by
  intro p level s port one two edge
  have hone : one = driveLine1 level port := portOf_setPort p _ s
  have htwo : two = driveLine2 level port := portOf_setPort p _ s
  rw [hone, htwo]
  refine ⟨?_, rfl, ?_, rfl, ?_, fun h5 h4 => ?_⟩
  · rw [driveLine1, Bool.or_eq_true, activeEdge_iff]
  · rw [driveLine2, Bool.or_eq_true, Bool.and_eq_true, Bool.not_eq_true', activeEdge_iff]
  · simp only [portIrq, Bool.or_eq_true, Bool.and_eq_true, Bool.not_eq_true', and_assoc]
  · rw [controlOutput, h5, h4]
    rfl

end Sys2Proof.Machine
end

section
/-! PROOFS of 60_exceptions: the registers, clocks and flags of the MC6840, the keyboard and the display. -/

namespace Sys2Proof.Machine

/-! ## The timers -/

@[simp] theorem timerOf_setTimer_same (t : TimerNo) (v : Timer) (p : Ptm) : timerOf t (setTimer t v p) = v := by
  cases t <;> rfl

theorem timerOf_setTimer_other {t u : TimerNo} (h : u ≠ t) (v : Timer) (p : Ptm) : timerOf u (setTimer t v p) = timerOf u p := by
  cases t with
  | t1 =>
    cases u with
    | t1 => exact absurd rfl h
    | t2 | t3 => rfl
  | t2 =>
    cases u with
    | t2 => exact absurd rfl h
    | t1 | t3 => rfl
  | t3 =>
    cases u with
    | t3 => exact absurd rfl h
    | t1 | t2 => rfl

@[simp] theorem setTimer_msbBuffer (t : TimerNo) (v : Timer) (p : Ptm) : (setTimer t v p).msbBuffer = p.msbBuffer := by
  cases t <;> rfl
@[simp] theorem setTimer_lsbBuffer (t : TimerNo) (v : Timer) (p : Ptm) : (setTimer t v p).lsbBuffer = p.lsbBuffer := by
  cases t <;> rfl
@[simp] theorem setTimer_divider3 (t : TimerNo) (v : Timer) (p : Ptm) : (setTimer t v p).divider3 = p.divider3 := by
  cases t <;> rfl

theorem timerOf_mapTimers (t : TimerNo) (f : Timer → Timer) (p : Ptm) : timerOf t (mapTimers f p) = f (timerOf t p) := by
  cases t <;> rfl

/-! ## Clock pulses -/

/-- A pulse reaches a timer that is not held, from the clock it selects, at timer 3 through its gate (R299). -/
theorem clockReaches_iff (t : TimerNo) (source : ClockSource) (p : Ptm) :
    clockReaches t source p = true ↔
      p.timer1.ctrl.getLsbD 0 = false ∧ source = (if (timerOf t p).ctrl.getLsbD 1 then .system else .external) ∧
        (t = .t3 → p.gate3 = true) := by
  simp only [clockReaches, ptmHeld, clockOf, Bool.and_eq_true, Bool.not_eq_true', beq_iff_eq, Bool.or_eq_true, bne_iff_ne,
    and_assoc, eq_comm (a := source), ne_eq, or_iff_not_imp_left, not_not]

theorem clockTimer_of_not_reaches {t : TimerNo} {source : ClockSource} {p : Ptm} (h : clockReaches t source p = false)
    (value : Word) (ends : Bool) : clockTimer t source value ends p = p := by
  simp only [clockTimer, h, Bool.false_eq_true, if_false]

/-- A pulse that reaches a timer counts, at timer 3 with its divider when the divider is full (R299). -/
theorem clockTimer_counts {t : TimerNo} {source : ClockSource} {p : Ptm} (h : clockReaches t source p = true)
    (hdivider : t = .t3 → p.timer3.ctrl.getLsbD 0 = false ∨ p.divider3 = 7) (value : Word) (ends : Bool) :
    ∃ divider3, clockTimer t source value ends p = countTo t value ends { p with divider3 } := by
  unfold clockTimer
  rw [if_pos h]
  split
  next hdivided =>
    simp only [Bool.and_eq_true, beq_iff_eq] at hdivided
    obtain ⟨rfl, hbit⟩ := hdivided
    have hfull : p.divider3 = 7 := (hdivider rfl).resolve_left (by simp [hbit])
    exact ⟨p.divider3 + 1, if_pos hfull⟩
  next => exact ⟨p.divider3, rfl⟩

/-- With bit 0 of CR#3 set, a pulse that reaches timer 3 goes to the divider, and to the counter when the divider is full (R299). -/
theorem clockTimer_divided {source : ClockSource} {p : Ptm} (h : clockReaches .t3 source p = true)
    (hbit : p.timer3.ctrl.getLsbD 0 = true) (value : Word) (ends : Bool) :
    clockTimer .t3 source value ends p =
      if p.divider3 = 7 then countTo .t3 value ends { p with divider3 := p.divider3 + 1 }
      else { p with divider3 := p.divider3 + 1 } := by
  simp only [clockTimer, h, hbit, beq_self_eq_true, Bool.and_true, if_true]

theorem timerOf_countTo_same (t : TimerNo) (value : Word) (ends : Bool) (p : Ptm) :
    timerOf t (countTo t value ends p) = { timerOf t p with
      counter := value, irq := (timerOf t p).irq || ends
      wave := (timerOf t p).wave ^^ (ends && modeOf (timerOf t p) == .continuous) } := timerOf_setTimer_same t _ p

theorem timerOf_countTo_other {t u : TimerNo} (h : u ≠ t) (value : Word) (ends : Bool) (p : Ptm) :
    timerOf u (countTo t value ends p) = timerOf u p := timerOf_setTimer_other h _ p

@[simp] theorem timerOf_divider3 (t : TimerNo) (p : Ptm) (divider3 : BitVec 3) : timerOf t { p with divider3 } = timerOf t p := by
  cases t <;> rfl

theorem modeOf_continuous {t : Timer} (h : t.ctrl.extractLsb' 3 3 = 0) : modeOf t = .continuous := if_pos h

/-- In the continuous mode the pin O shows the square wave, which the end of a count cycle turns (R299). -/
theorem timerOutput_countTo {t : TimerNo} {p : Ptm} (hmode : (timerOf t p).ctrl.extractLsb' 3 3 = 0)
    (hpin : (timerOf t p).ctrl.getLsbD 7 = true) (value : Word) (ends : Bool) :
    timerOutput (timerOf t (countTo t value ends p)) = some ((timerOf t p).wave ^^ ends) := by
  have hcontinuous : modeOf (timerOf t (countTo t value ends p)) = .continuous := by
    rw [timerOf_countTo_same]
    exact modeOf_continuous hmode
  rw [timerOutput, hcontinuous, timerOf_countTo_same, hpin, modeOf_continuous hmode]
  simp

/-! ## What only an access changes -/

/-- From a state of the MC6840 to another the two buffers stay, and what each timer remembers of the reads of its status. -/
structure AccessesKept (p q : Ptm) : Prop where
  msbBuffer : q.msbBuffer = p.msbBuffer
  lsbBuffer : q.lsbBuffer = p.lsbBuffer
  statusRead : ∀ t, (timerOf t q).statusRead = (timerOf t p).statusRead

theorem AccessesKept.refl (p : Ptm) : AccessesKept p p := ⟨rfl, rfl, fun _ => rfl⟩

theorem AccessesKept.trans {p q r : Ptm} (h : AccessesKept p q) (h' : AccessesKept q r) : AccessesKept p r :=
  ⟨h'.msbBuffer.trans h.msbBuffer, h'.lsbBuffer.trans h.lsbBuffer, fun t => (h'.statusRead t).trans (h.statusRead t)⟩

theorem accessesKept_divider3 (p : Ptm) (divider3 : BitVec 3) : AccessesKept p { p with divider3 } :=
  ⟨rfl, rfl, fun t => by rw [timerOf_divider3]⟩

theorem accessesKept_countTo (t : TimerNo) (value : Word) (ends : Bool) (p : Ptm) :
    AccessesKept p (countTo t value ends p) where
  msbBuffer := setTimer_msbBuffer t _ p
  lsbBuffer := setTimer_lsbBuffer t _ p
  statusRead u := by
    by_cases h : u = t
    · subst h; rw [timerOf_countTo_same]
    · rw [timerOf_countTo_other h]

theorem accessesKept_clockTimer (t : TimerNo) (source : ClockSource) (value : Word) (ends : Bool) (p : Ptm) :
    AccessesKept p (clockTimer t source value ends p) := by
  unfold clockTimer
  split
  · split
    · dsimp only
      split
      · exact (accessesKept_divider3 p _).trans (accessesKept_countTo t value ends _)
      · exact accessesKept_divider3 p _
    · exact accessesKept_countTo t value ends p
  · exact .refl p

/-- Nothing that comes from outside changes what only an access does. -/
theorem accessesKept_applyEvent (e : DeviceEvent) (s : State) : AccessesKept s.ptm (applyEvent e s).ptm := by
  cases e with
  | portPins p | controlLine1 p | controlLine2 p => cases p <;> exact .refl _
  | timerClock t source value ends => exact accessesKept_clockTimer t source value ends s.ptm
  | gate3 => exact ⟨rfl, rfl, fun t => by cases t <;> rfl⟩
  | keyRow => exact .refl _

theorem accessesKept_applyEvents (es : List DeviceEvent) (s : State) : AccessesKept s.ptm (applyEvents es s).ptm := by
  induction es generalizing s with
  | nil => exact .refl _
  | cons e es ih => exact (accessesKept_applyEvent e s).trans (ih _)

theorem accessesKept_letDevicesMove (s : State) : AccessesKept s.ptm (letDevicesMove s).ptm := by
  unfold letDevicesMove
  split
  next => exact .refl _
  next es rest _ => exact accessesKept_applyEvents es { s with between := rest }

/-! ## The registers -/

/-- The address of a timer's MSB; the next one is that of its LSB (R296). -/
def timerAddress : TimerNo → Word
  | .t1 => 0xF01A
  | .t2 => 0xF01C
  | .t3 => 0xF01E

theorem deviceAt_timerAddress (t : TimerNo) :
    deviceAt (timerAddress t) = some (.ptmMsb t) ∧ deviceAt (timerAddress t + 1) = some (.ptmLsb t) := by
  cases t <;> exact ⟨rfl, rfl⟩

/-- A write at $F018 is one of CR#3 while bit 0 of CR#2 is 0 (R297). -/
theorem writeControl13_cr3 {p : Ptm} (h : p.timer2.ctrl.getLsbD 0 = false) (v : Byte) :
    writeControl13 v p = { p with timer3 := { p.timer3 with ctrl := v } } := by
  simp only [writeControl13, h, Bool.false_eq_true, if_false, setTimer]

/-- It is one of CR#1 while that bit is 1; setting bit 0 of CR#1 clears the flags (R297, R300). -/
theorem writeControl13_cr1 {p : Ptm} (h : p.timer2.ctrl.getLsbD 0 = true) (v : Byte) :
    (writeControl13 v p).timer1.ctrl = v ∧ (writeControl13 v p).timer3.ctrl = p.timer3.ctrl ∧
      (v.getLsbD 0 = true → ∀ t, (timerOf t (writeControl13 v p)).irq = false) := by
  unfold writeControl13
  rw [if_pos h]
  dsimp only
  split
  next => exact ⟨rfl, rfl, fun _ t => by rw [timerOf_mapTimers]; rfl⟩
  next hv => exact ⟨rfl, rfl, fun hv' => absurd hv' hv⟩

theorem writeByte_control13 (v : Byte) (s : State) :
    (writeByte 0xF018 v s).ptm = writeControl13 v (letDevicesMove s).ptm :=
  congrArg State.ptm (writeByte_device (d := .ptmControl13) rfl v s)

/-- A write of the latches takes the MSB from its buffer and clears the timer's flag (R298, R300). -/
theorem timerOf_writeLatch_same (t : TimerNo) (v : Byte) (p : Ptm) :
    (timerOf t (writeLatch t v p)).latch = catBytes p.msbBuffer v ∧ (timerOf t (writeLatch t v p)).irq = false := by
  rw [writeLatch, timerOf_setTimer_same]
  exact ⟨rfl, rfl⟩

/-- Settles O58: each address selects its register, and the timer does there what a read or a write of that register does. -/
theorem timerRegisters : Obligations.TimerRegisters := by
  intro t v s₀ s even
  obtain ⟨heven, hodd⟩ := deviceAt_timerAddress t
  have hwrite13 : (writeByte 0xF018 v s₀).ptm = writeControl13 v s.ptm := writeByte_control13 v s₀
  have hwriteOdd : (writeByte (even + 1) v s₀).ptm = writeLatch t v s.ptm := congrArg State.ptm (writeByte_device hodd v s₀)
  refine ⟨fun h => ?cr1, fun h => ?cr3, congrArg State.ptm (writeByte_device (d := .ptmControl2) rfl v s₀),
    congrArg Prod.fst (readByte_device (d := .ptmControl2) rfl s₀), congrArg State.ptm (writeByte_device heven v s₀),
    congrArg Prod.fst (readByte_device heven s₀), ?latch, fun u hu => ?others, congrArg Prod.fst (readByte_device hodd s₀), _,
    readByte_device (d := .ptmControl13) rfl s₀⟩
  case cr1 =>
    obtain ⟨h1, h3, -⟩ := writeControl13_cr1 h v
    rw [hwrite13]
    exact ⟨h1, h3⟩
  case cr3 => rw [hwrite13, writeControl13_cr3 h]
  case latch =>
    obtain ⟨hlatch, -⟩ := timerOf_writeLatch_same t v s.ptm
    rw [hwriteOdd, hlatch, catBytes_eq_ofNat]
  case others => rw [hwriteOdd, writeLatch, timerOf_setTimer_other hu]

/-! ## Counting and flags -/

/-- The status register shows the flags on bits 0 to 2 and their enabled disjunction on bit 7 (R300). -/
theorem statusByte_bits (p : Ptm) :
    (statusByte p).getLsbD 0 = (timerOf .t1 p).irq ∧ (statusByte p).getLsbD 1 = (timerOf .t2 p).irq ∧
      (statusByte p).getLsbD 2 = (timerOf .t3 p).irq ∧ (∀ k, 3 ≤ k → k ≤ 6 → (statusByte p).getLsbD k = false) ∧
      (statusByte p).getLsbD 7 = ptmIrq p := by
  simp only [statusByte, BitVec.getLsbD_append]
  refine ⟨by simp [timerOf], by simp [timerOf], by simp [timerOf], fun k h3 h6 => ?_, by simp⟩
  interval_cases k <;> simp

theorem ptmIrq_iff (p : Ptm) : ptmIrq p = true ↔ ∃ t, (timerOf t p).irq = true ∧ (timerOf t p).ctrl.getLsbD 6 = true := by
  simp only [ptmIrq, Bool.or_eq_true, Bool.and_eq_true, or_assoc]
  constructor
  · rintro (h | h | h)
    exacts [⟨.t1, h⟩, ⟨.t2, h⟩, ⟨.t3, h⟩]
  · rintro ⟨t, h⟩
    cases t
    exacts [.inl h, .inr (.inl h), .inr (.inr h)]

/-- A read of the status register is remembered by every timer, and clears no flag by itself (R300). -/
theorem timerOf_readStatus (t : TimerNo) (p : Ptm) :
    timerOf t (readStatus p).2 = { timerOf t p with statusRead := true } := timerOf_mapTimers t _ p

/-- A read of a counter keeps the timer's flag exactly where no read of the status came before (R300). -/
theorem timerOf_readCounterMsb_irq (t : TimerNo) (p : Ptm) :
    (timerOf t (readCounterMsb t p).2).irq = ((timerOf t p).irq && !(timerOf t p).statusRead) := by
  cases t <;> rfl

/-- Between the two accesses of a word the devices may move, but they leave the buffers as the first access left them. -/
theorem readWord_timer (t : TimerNo) (s : State) :
    (readWord (timerAddress t) s).1 = (timerOf t (letDevicesMove s).ptm).counter := by
  obtain ⟨heven, hodd⟩ := deviceAt_timerAddress t
  have hkept := accessesKept_letDevicesMove (readByte (timerAddress t) s).2
  rw [readByte_device heven] at hkept
  rw [readWord, readByte_device heven, readByte_device hodd]
  exact (congrArg (catBytes _) hkept.lsbBuffer).trans (catBytes_hi_lo _)

theorem writeWord_timer (t : TimerNo) (w : Word) (s : State) :
    (timerOf t (writeWord (timerAddress t) w s).ptm).latch = w ∧
      (timerOf t (writeWord (timerAddress t) w s).ptm).irq = false := by
  obtain ⟨heven, hodd⟩ := deviceAt_timerAddress t
  have hkept := accessesKept_letDevicesMove (writeByte (timerAddress t) (hiByte w) s)
  have hbuffer : (writeByte (timerAddress t) (hiByte w) s).ptm.msbBuffer = hiByte w := by
    rw [writeByte_device heven]
    rfl
  obtain ⟨hlatch, hirq⟩ :=
    timerOf_writeLatch_same t (loByte w) (letDevicesMove (writeByte (timerAddress t) (hiByte w) s)).ptm
  rw [hkept.msbBuffer, hbuffer, catBytes_hi_lo] at hlatch
  rw [writeWord, writeByte_device hodd]
  exact ⟨hlatch, hirq⟩

/-- Settles O59: a word at a timer's address is two accesses, a pulse is a `clockTimer`, and a flag is cleared by two reads. -/
theorem timerFlags : Obligations.TimerFlags := by
  intro t clock w ends v s₀ s even pulse held status flag enabled
  obtain ⟨heven, -⟩ := deviceAt_timerAddress t
  have hstatus : status = (statusByte s.ptm, { s with ptm := (readStatus s.ptm).2 }) :=
    readByte_device (d := .ptmControl2) rfl s₀
  have hreadMsb : ∀ u, (readByte even u).2.ptm = (readCounterMsb t (letDevicesMove u).ptm).2 := fun u =>
    congrArg (fun r => r.2.ptm) (readByte_device heven u)
  obtain ⟨hbit0, hbit1, hbit2, hzero, hbit7⟩ := statusByte_bits s.ptm
  obtain ⟨hlatch, hirq⟩ := writeWord_timer t w s₀
  rw [hstatus]
  refine ⟨⟨hlatch, hirq, readWord_timer t s₀⟩, fun hstop => ?stopped, fun hrun hclock hgate => ?counts,
    fun hbit hnot => ?dividing, fun hbit hrun hgate hclock => ?divided, hbit0, hbit1, hbit2, hzero,
    (Bool.eq_iff_iff.mp hbit7).trans (ptmIrq_iff s.ptm), fun u => ?shown, ?cleared, fun hunread => ?kept, fun h2 hv u => ?reset⟩
  case stopped =>
    refine clockTimer_of_not_reaches (Bool.eq_false_iff.mpr fun hreach => ?_) w ends
    obtain ⟨hrun, hclock, hgate⟩ := (clockReaches_iff t clock s.ptm).mp hreach
    rcases hstop with h | h | ⟨ht, h⟩
    · exact absurd (hrun.symm.trans h) Bool.false_ne_true
    · exact h hclock
    · exact absurd (h.symm.trans (hgate ht)) Bool.false_ne_true
  case counts =>
    have hreach := (clockReaches_iff t clock s.ptm).mpr ⟨hrun, hclock, fun ht => (hgate ht).1⟩
    obtain ⟨divider3, hcount⟩ := clockTimer_counts hreach (fun ht => (hgate ht).2) w ends
    have hptm : (applyEvent pulse s).ptm = countTo t w ends { s.ptm with divider3 } := hcount
    rw [hptm]
    refine ⟨?_, ?_, fun hmode hpin => ?_, fun u hu => by rw [timerOf_countTo_other hu, timerOf_divider3]⟩
    · rw [timerOf_countTo_same]
    · rw [timerOf_countTo_same, timerOf_divider3]
    · rw [timerOutput_countTo (by rwa [timerOf_divider3]) (by rwa [timerOf_divider3]), timerOf_divider3]
  case dividing =>
    cases hreach : clockReaches .t3 clock s.ptm with
    | false => exact congrArg (timerOf .t3) (clockTimer_of_not_reaches hreach w ends)
    | true =>
      have hdivided := clockTimer_divided hreach hbit w ends
      rw [if_neg hnot] at hdivided
      exact (congrArg (timerOf .t3) hdivided).trans (timerOf_divider3 .t3 s.ptm _)
  case divided =>
    have hreach := (clockReaches_iff .t3 clock s.ptm).mpr ⟨hrun, hclock, fun _ => hgate⟩
    refine (congrArg Ptm.divider3 (clockTimer_divided hreach hbit w ends)).trans ?_
    split
    · exact setTimer_divider3 .t3 _ _
    · rfl
  case shown => exact (congrArg Timer.irq (timerOf_readStatus u s.ptm)).trans rfl
  case cleared =>
    have hread := (accessesKept_letDevicesMove { s with ptm := (readStatus s.ptm).2 }).statusRead t
    rw [hreadMsb, timerOf_readCounterMsb_irq, hread, timerOf_readStatus, Bool.not_true, Bool.and_false]
  case kept => rw [hreadMsb, timerOf_readCounterMsb_irq, hunread, Bool.not_false, Bool.and_true]
  case reset =>
    obtain ⟨-, -, hcleared⟩ := writeControl13_cr1 h2 v
    rw [writeByte_control13, hcleared hv]

/-! ## Keyboard and display -/

/-- Bits 0 to 3 of a row read as its keys, in the board's polarity (R303). -/
theorem keyRowByte_bits (keys : BitVec 4) (free : Byte) {k : Nat} (hk : k < 4) :
    (keyRowByte keys free).getLsbD k = (keys.getLsbD k == Config.keyActive) := by
  rw [keyRowByte, BitVec.getLsbD_append, if_pos hk]
  cases Config.keyActive with
  | true => simp
  | false => simp [hk]

/-- Settles O60: a key reads as the polarity of the board says, and a digit's two addresses store its byte. -/
theorem keyboardAndDisplay : Obligations.KeyboardAndDisplay := by
  obtain ⟨_, _, _, _, hrow, _, _, _, _, _, _, _, _, hdigit, _⟩ := deviceAddresses
  refine ⟨fun r s k hk => ?_, fun n v s₀ => ⟨writeByte_device (hdigit n).1 v s₀, writeByte_device (hdigit n).2 v s₀⟩⟩
  rw [readByte_device (hrow r)]
  exact keyRowByte_bits _ _ hk

end Sys2Proof.Machine
end

section
/-! PROOFS of 70_reset_and_hazards: the state after reset, and a RESET input at a boundary and in the middle of what one starts. -/

namespace Sys2Proof.Machine

/-! ## The reset state -/

/-- What R330 fixes, apart from PC: the masks, DP, NMI, the wait, the MC6821 all $00, the MC6840 held with no flag. -/
structure AfterReset (s : State) : Prop where
  maskI : s.cc.i = true
  maskF : s.cc.f = true
  dp : s.dp = 0
  nmiArmed : s.nmiArmed = false
  nmiPending : s.nmiPending = false
  wait : s.wait = .none
  ports : ∀ p, (portOf p s).latch = 0 ∧ (portOf p s).ddr = 0 ∧ controlByte (portOf p s) = 0
  timers : s.ptm.timer1.ctrl = 0x01 ∧ s.ptm.timer2.ctrl = 0 ∧ s.ptm.timer3.ctrl = 0 ∧ statusByte s.ptm = 0 ∧
    ∀ t, (timerOf t s.ptm).latch = 0xFFFF

theorem afterReset_reset : AfterReset State.reset :=
  ⟨rfl, rfl, rfl, rfl, rfl, rfl, fun p => by cases p <;> exact ⟨rfl, rfl, rfl⟩, rfl, rfl, rfl, rfl, fun t => by cases t <;> rfl⟩

/-- After reset nothing is stored, so a ROM address holds its byte of ROM_IMAGE (log 3). -/
theorem cellByte_reset_rom {addr : Word} (h : regionIn defaultMap addr.toNat = .rom) :
    cellByte addr State.reset = Config.romImage addr := if_pos h

/-- Settles O49: the reset state lists no byte of memory, has no NMI pending and no timer flag. -/
theorem resetInvariant : Obligations.ResetInvariant where
  memory := Memory.wf_reset
  nmi hpending := absurd (afterReset_reset.nmiPending.symm.trans hpending) Bool.false_ne_true
  timers := rfl

/-- Settles O53: the vector lies in ROM, and the rest is `AfterReset`. -/
theorem resetValues : Obligations.ResetValues := by
  obtain ⟨hi, hf, hdp, harmed, hpending, hwait, hports, htimers⟩ := afterReset_reset
  have hvector : cellWord 0xFFFE State.reset = catBytes (Config.romImage 0xFFFE) (Config.romImage 0xFFFF) :=
    congrArg₂ catBytes (cellByte_reset_rom (by decide)) (cellByte_reset_rom (by decide))
  exact ⟨hvector.symm, hvector, hi, hf, hdp, harmed, hpending, hwait, hports, htimers⟩

/-! ## The reset entry -/

/-- With the vector in RAM or ROM, the reset entry loads PC with it and reads nothing else (R331). -/
theorem resetEntry_cell {s : State} (h : Plain 0xFFFE s) (h' : Plain 0xFFFF s) :
    resetEntry s = { resetFields s with pc := cellWord 0xFFFE s } := by
  have hword : readWord resetVector (resetFields s) = (cellWord 0xFFFE s, resetFields s) := readWord_cell h h'
  rw [resetEntry, jumpThrough, hword]

/-- A port's control register does not show the levels that the outside still drives. -/
theorem controlByte_resetFields (p : PortName) (s : State) : controlByte (portOf p (resetFields s)) = 0 := by
  cases p <;> exact (rfl : _ = controlByte PiaPort.reset).trans (by decide)

/-- The timers' flags and enables are not among their free values. -/
theorem statusByte_resetFields (s : State) : statusByte (resetFields s).ptm = 0 :=
  (rfl : _ = statusByte Ptm.reset).trans (by decide)

theorem afterReset_resetFields (s : State) : AfterReset (resetFields s) :=
  ⟨rfl, rfl, rfl, rfl, rfl, rfl, fun p => ⟨by cases p <;> rfl, by cases p <;> rfl, controlByte_resetFields p s⟩,
    rfl, rfl, rfl, statusByte_resetFields s, fun t => by cases t <;> rfl⟩

/-- PC is not among the fields. -/
theorem AfterReset.setPC {s : State} (h : AfterReset s) (pc : Word) : AfterReset { s with pc } :=
  ⟨h.maskI, h.maskF, h.dp, h.nmiArmed, h.nmiPending, h.wait, h.ports, h.timers⟩

section Entry
variable {s : State} (h : Plain 0xFFFE s) (h' : Plain 0xFFFF s)
include h h'

theorem resetEntry_pc : (resetEntry s).pc = cellWord 0xFFFE s := by rw [resetEntry_cell h h']

/-- Nothing is stacked (R331). -/
theorem resetEntry_memory : SameMemory s (resetEntry s) := by
  rw [resetEntry_cell h h']
  exact ⟨rfl, rfl⟩

theorem afterReset_resetEntry : AfterReset (resetEntry s) := by
  rw [resetEntry_cell h h']
  exact (afterReset_resetFields s).setPC _

end Entry

/-! ## RESET at a boundary -/

/-- An input reaches the devices and the lines, not memory. -/
theorem takeInput_memory (inp : BoundaryInput) (rest : List BoundaryInput) (s : State) : SameMemory s (takeInput inp rest s) := by
  rw [takeInput, applyEvents_frame]
  exact ⟨rfl, rfl⟩

/-- Settles O54: the step is the reset entry, from every state. -/
theorem resetInput : Obligations.ResetInput := by
  intro inp rest s hinputs hreset hhigh hlow
  obtain ⟨hmem, hmap⟩ := takeInput_memory inp rest s
  have hhigh' := (plain_congr hmap).mpr hhigh
  have hlow' := (plain_congr hmap).mpr hlow
  obtain ⟨hi, hf, hdp, harmed, hpending, hwait, hports, htimers⟩ := afterReset_resetEntry hhigh' hlow'
  obtain ⟨hmem', hmap'⟩ := resetEntry_memory hhigh' hlow'
  exact ⟨_, step_reset hinputs hreset, (resetEntry_pc hhigh' hlow').trans (cellWord_congr _ hmem hmap), hi, hf, hdp, harmed,
    hpending, hwait, ⟨hmem'.trans hmem, hmap'.trans hmap⟩, hports, htimers⟩

/-! ## Stored bytes stay listed -/

/-- From a state to another no address is struck from the list of memory. -/
def KeepsListed (s t : State) : Prop := ∀ n, t.mem.get n = none → s.mem.get n = none

section Listed
variable {s t u : State}

theorem KeepsListed.of_mem_eq (h : t.mem = s.mem) : KeepsListed s t := fun _ hn => h ▸ hn

theorem KeepsListed.trans (h : KeepsListed s t) (h' : KeepsListed t u) : KeepsListed s u := fun n hn => h n (h' n hn)

theorem keepsListed_setWait (wait : Wait) (s : State) : KeepsListed s { s with wait } := .of_mem_eq rfl

theorem keepsListed_writeByte (addr : Word) (v : Byte) (s : State) : KeepsListed s (writeByte addr v s) := by
  unfold writeByte
  split
  next => rw [writeDevice_frame]; exact .of_mem_eq (letDevicesMove_mem s)
  next =>
    intro n hn
    by_cases h : n = addr.toNat
    · subst h
      exact absurd ((Memory.get_put_same _ v s.mem).symm.trans hn) (Option.some_ne_none v)
    · exact (Memory.get_put_other v s.mem h).symm.trans hn
  next => exact .of_mem_eq rfl
  next => exact .of_mem_eq rfl

theorem keepsListed_writeWord (addr v : Word) (s : State) : KeepsListed s (writeWord addr v s) :=
  (keepsListed_writeByte addr (hiByte v) s).trans (keepsListed_writeByte _ _ _)

theorem keepsListed_pushBytes (p : StackPtr) (bytes : List Byte) (s : State) : KeepsListed s (pushBytes p bytes s) := by
  induction bytes with
  | nil => exact .of_mem_eq rfl
  | cons b bytes ih =>
    have hmoved : KeepsListed s (setSp p (getSp p (pushBytes p bytes s) - 1) (pushBytes p bytes s)) :=
      ih.trans (.of_mem_eq (setSp_mem p _ _))
    exact hmoved.trans (keepsListed_writeByte _ b _)

theorem keepsListed_pushList (p : StackPtr) (list : Byte) (s : State) : KeepsListed s (pushList p list s) := by
  rw [pushList_eq_pushBytes]
  exact keepsListed_pushBytes p _ s

theorem keepsListed_pushEntireFrame (s : State) : KeepsListed s (pushEntireFrame s) := by
  rw [pushEntireFrame_eq_pushBytes]
  exact keepsListed_pushBytes .s (frameBytes s) s

theorem keepsListed_callTo (target : Word) (s : State) : KeepsListed s (callTo target s) :=
  keepsListed_pushBytes .s (wordBytes s.pc) s

theorem keepsListed_memUnary (f : Byte → CC → Byte × CC) (m : MemOperand) (s : State) : KeepsListed s (memUnary f m s) :=
  (KeepsListed.of_mem_eq (by simp)).trans (keepsListed_writeByte _ _ _)

theorem keepsListed_storeAcc (r : Acc) (m : MemOperand) (s : State) : KeepsListed s (storeAcc r m s) :=
  (KeepsListed.of_mem_eq (effectiveAddress_mem m s)).trans (keepsListed_writeByte _ _ _)

theorem keepsListed_storeWord (r : Reg16) (m : MemOperand) (s : State) : KeepsListed s (storeWord r m s) :=
  (KeepsListed.of_mem_eq (effectiveAddress_mem m s)).trans (keepsListed_writeWord _ _ _)

theorem keepsListed_stackFor (k : Interrupt) (s : State) : KeepsListed s (stackFor k s) := by
  by_cases hw : s.wait = .cwai
  · rw [stackFor_cwai k hw]
    exact .of_mem_eq rfl
  · rw [stackFor_eq_pushList k hw]
    exact keepsListed_pushList .s (entryList k) (stackedState k s)

/-- Wherever the vector lies, an entry stores nothing after its stacking. -/
theorem sameMemory_stackFor_raiseInterrupt (k : Interrupt) (s : State) : SameMemory (stackFor k s) (raiseInterrupt k s) := by
  rw [raiseInterrupt, jumpThrough]
  exact ⟨readWord_mem _ _, readWord_memMap _ _⟩

theorem keepsListed_raiseInterrupt (k : Interrupt) (s : State) : KeepsListed s (raiseInterrupt k s) :=
  (keepsListed_stackFor k s).trans (.of_mem_eq (sameMemory_stackFor_raiseInterrupt k s).1)

theorem keepsListed_softwareInterrupt (k : Interrupt) (s : State) :
    KeepsListed s (raiseInterrupt k { s with wait := .none }) :=
  (keepsListed_setWait .none s).trans (keepsListed_raiseInterrupt k _)

theorem keepsListed_cwai (mask : Byte) (he : exec (.cwai mask) s = .next t) : KeepsListed s t := by
  obtain rfl := Host.Outcome.next.inj ((exec_cwai mask s).symm.trans he)
  have hmasked : KeepsListed s (cwaiMasked mask s) := .of_mem_eq rfl
  exact hmasked.trans ((keepsListed_pushEntireFrame (cwaiMasked mask s)).trans (keepsListed_setWait .cwai _))

/-- The instructions that store keep what is listed: one case for each shape. The cases left to the end store nothing. -/
theorem exec_keepsListed {i : Instr} (he : exec i s = .next t) (hstores : storesTo i s ≠ []) : KeepsListed s t := by
  cases i with
  | clr | com | dec | inc | lsr | rol | ror => cases he; exact keepsListed_memUnary _ _ s
  | asl | asr | lsl | neg => cases he; exact keepsListed_memUnary _ _ (nextDraw s)
  | sta | stb => cases he; exact keepsListed_storeAcc _ _ s
  | std | sts | stu | stx | sty => cases he; exact keepsListed_storeWord _ _ s
  | pshs list => cases he; exact keepsListed_pushList .s list s
  | pshu list => cases he; exact keepsListed_pushList .u list s
  | jsr m => cases he; exact (KeepsListed.of_mem_eq (effectiveAddress_mem m s)).trans (keepsListed_callTo _ _)
  | bsr | lbsr => cases he; exact keepsListed_callTo _ s
  | swi | swi2 | swi3 => obtain rfl := Host.Outcome.next.inj he; exact keepsListed_softwareInterrupt _ s
  | cwai mask => exact keepsListed_cwai mask he
  | _ => exact absurd rfl hstores

end Listed

/-! ## RESET in the middle -/

theorem fetchMore_memory {n : Nat} {bytes : List Byte} {s : State} : SameMemory s (fetchMore n bytes s).2 := by
  induction n generalizing bytes s with
  | zero => exact ⟨rfl, rfl⟩
  | succ n ih =>
    unfold fetchMore
    split
    · obtain ⟨hmem, hmap⟩ := ih (bytes := bytes ++ [(readByte s.pc s).1])
        (s := { (readByte s.pc s).2 with pc := (readByte s.pc s).2.pc + 1 })
      exact ⟨hmem.trans (readByte_mem _ s), hmap.trans (readByte_memMap _ s)⟩
    · exact ⟨rfl, rfl⟩

/-- The state afterwards, but of its stores only some are done: all other memory is as before. -/
def withStoresDone (done : List Word) (before after : State) : State :=
  { after with mem := copyCells after.mem done before.mem }

theorem abandonedAfter_eq (k : Nat) (stores : List Word) (before after : State) :
    abandonedAfter k stores before after = resetEntry (withStoresDone (stores.take k) before after) := rfl

section Done
variable {done : List Word} {before after : State} {a : Word}

theorem get_withStoresDone : (withStoresDone done before after).mem.get a.toNat =
    if a ∈ done ∧ (after.mem.get a.toNat).isSome then after.mem.get a.toNat else before.mem.get a.toNat := by
  simp only [withStoresDone, copyCells_get, BitVec.toNat_inj, exists_eq_right]

theorem cellByte_withStoresDone_other (hmap : after.memMap = before.memMap) (ha : a ∉ done) :
    cellByte a (withStoresDone done before after) = cellByte a before := by
  have hget : (withStoresDone done before after).mem.get a.toNat = before.mem.get a.toNat :=
    get_withStoresDone.trans (if_neg fun h => ha h.1)
  have hmap' : (withStoresDone done before after).memMap = before.memMap := hmap
  simp only [cellByte, hget, hmap']

/-- A byte is copied where memory lists it afterwards; where it does not, it did not before, and the address reads the same. -/
theorem cellByte_withStoresDone_stored (hlisted : KeepsListed before after) (ha : a ∈ done) :
    cellByte a (withStoresDone done before after) = cellByte a after := by
  have hget : (withStoresDone done before after).mem.get a.toNat = after.mem.get a.toNat := by
    rw [get_withStoresDone]
    cases hafter : after.mem.get a.toNat with
    | some v => exact if_pos ⟨ha, rfl⟩
    | none => simpa using hlisted _ hafter
  have hmap : (withStoresDone done before after).memMap = after.memMap := rfl
  simp only [cellByte, hget, hmap]

end Done

/-- What a RESET in the middle leaves of something that leads from one state to another: the stores that are done, memory otherwise as
before, and the reset state (R331). -/
structure Abandoned (done : List Word) (before after v : State) : Prop where
  other : ∀ a, a ∉ done → cellByte a v = cellByte a before
  stored : ∀ a ∈ done, cellByte a v = cellByte a after
  memMap : v.memMap = before.memMap
  pc : v.pc = cellWord 0xFFFE v
  reset : AfterReset v

theorem abandoned_abandonedAfter {k : Nat} {stores : List Word} {before after : State} (hmap : after.memMap = before.memMap)
    (hlisted : stores ≠ [] → KeepsListed before after) (hhigh : Plain 0xFFFE before) (hlow : Plain 0xFFFF before) :
    Abandoned (stores.take k) before after (abandonedAfter k stores before after) := by
  have hhigh' : Plain 0xFFFE (withStoresDone (stores.take k) before after) := (plain_congr hmap).mpr hhigh
  have hlow' : Plain 0xFFFF (withStoresDone (stores.take k) before after) := (plain_congr hmap).mpr hlow
  obtain ⟨hmem, hmap'⟩ := resetEntry_memory hhigh' hlow'
  rw [abandonedAfter_eq]
  exact {
    other := fun a ha => (cellByte_congr a hmem hmap').trans (cellByte_withStoresDone_other hmap ha)
    stored := fun a ha => (cellByte_congr a hmem hmap').trans
      (cellByte_withStoresDone_stored (hlisted (List.ne_nil_of_mem (List.mem_of_mem_take ha))) ha)
    memMap := hmap'.trans hmap
    pc := (resetEntry_pc hhigh' hlow').trans (cellWord_congr _ hmem hmap').symm
    reset := afterReset_resetEntry hhigh' hlow' }

/-- Where RESET arrives in the middle, the step abandons what the boundary would have carried out. -/
theorem step_abandoned {s completed : State} {inp : BoundaryInput} {rest : List BoundaryInput} {k : Nat} (h : s.inputs = inp :: rest)
    (hreset : inp.reset = false) (hk : inp.resetDuring = some k) (hc : carryOut s = .next completed) :
    step s = .next (abandonedAfter k (boundaryStores (takeInput inp rest s)) (takeInput inp rest s) completed) := by
  simp only [step, hc, finishStep_abandoned h hreset hk]

theorem entryStores_eq (k : Interrupt) (s : State) :
    entryStores k s = if s.wait = .cwai then [] else if k = .firq then below s.s 3 else below s.s 12 := by
  unfold entryStores
  split
  next hw => rw [if_pos hw]
  next hw =>
    rw [if_neg hw]
    cases k <;> rfl

/-- Settles O55: an instruction and an entry keep MEM_MAP and what memory lists, so either can be abandoned. -/
theorem resetInTheMiddle : Obligations.ResetInTheMiddle := by
  intro inp rest k s hinputs hreset hk hhigh hlow t abandons
  obtain ⟨hmem, hmap⟩ : SameMemory s t := takeInput_memory inp rest s
  have hnext : nextAction s = boundaryAction t := (nextAction_input hinputs).trans (if_neg (Bool.eq_false_iff.mp hreset))
  have abandoned : ∀ {stores completed}, boundaryStores t = stores → carryOut s = .next completed →
      completed.memMap = t.memMap → (stores ≠ [] → KeepsListed t completed) → abandons stores completed := by
    intro stores completed hstores hcarry hmap' hlisted
    obtain ⟨hother, hstored, hmapv, hpc, ⟨hi, hf, hdp, harmed, hpending, hwait, hports, htimers⟩⟩ :=
      abandoned_abandonedAfter (k := k) hmap' hlisted ((plain_congr hmap).mpr hhigh) ((plain_congr hmap).mpr hlow)
    exact ⟨_, hstores ▸ step_abandoned hinputs hreset hk hcarry, fun a ha => (hother a ha).trans (cellByte_congr a hmem hmap), hstored,
      hmapv.trans hmap, hpc, hi, hf, hdp, harmed, hpending, hwait, hports, htimers⟩
  refine ⟨fun i r fetched completed hnone hwait hfetch hexec => ?instruction, fun n hn => ?entry⟩
  case instruction =>
    have hrun : boundaryAction t = .run i fetched := by simp only [boundaryAction, hnone, hwait, fetchAction, hfetch]
    obtain ⟨hmemf, hmapf⟩ : SameMemory t (fetch t).2 := fetchMore_memory
    rw [hfetch] at hmemf hmapf
    refine abandoned ?_ ?_ ((exec_storesOnly hexec).memMap.trans hmapf) fun hstores =>
      (KeepsListed.of_mem_eq hmemf).trans (exec_keepsListed hexec hstores)
    · simp only [boundaryStores, hnone, hrun]
    · simp only [carryOut, hnext, hrun, hexec]
  case entry =>
    have hbecome : boundaryAction t = .become (raiseInterrupt n t) := by simp only [boundaryAction, hn]
    have hmapn : (raiseInterrupt n t).memMap = t.memMap := (sameMemory_stackFor_raiseInterrupt n t).2.trans (stackFor_memMap n t)
    refine abandoned ?_ ?_ hmapn fun _ => keepsListed_raiseInterrupt n t
    · simp only [boundaryStores, hn, entryStores_eq]
    · simp only [carryOut, hnext, hbecome]

end Sys2Proof.Machine
end
